-- ==== Sys2Proof/Word.lean ====
section
/-! DEFINITION. The word types of chip8_core (00_scope.md R6, R8, R9; 30_encoding.md R101). Every value is
unsigned; a bit is numbered from 0, the least significant. -/

namespace Sys2Proof

/-- 8 bits: a general register, a timer, a memory byte (R6). -/
abbrev Byte := BitVec 8

/-- 16 bits: an instruction word, the program counter, the index register, a stack entry (R6). -/
abbrev Word := BitVec 16

/-- 12 bits: the field `nnn` (R101). -/
abbrev Addr12 := BitVec 12

/-- 4 bits: the fields `x` and `y`, which select `V[0]` to `V[0xF]` (R30, R101). -/
abbrev RegIndex := BitVec 4

/-- 4 bits: the field `n` (R101). -/
abbrev Nibble := BitVec 4

/-- A valid key index, 0x0 to 0xF (R42). -/
abbrev KeyIndex := BitVec 4

end Sys2Proof
end

