-- ==== Sys2Proof/Config.lean ====
section
/-! DEFINITION. What the spec leaves to the implementation (00_scope.md R7) and the free values of the two environment
inputs (43_index_random.md R193, 45_input_timers.md R223).

The parameters are ONE plain record, held in State (log 1), so a statement about every state is a statement about every
choice of the parameters. Their defaults are the spec's (R7); a run from reset uses them. -/

namespace Sys2Proof.Config

/-- `SYS_0NNN`: how the decoder treats a 0nnn word other than 00E0 and 00EE (R112). -/
inductive Sys0nnn
  | invalid
  | nop
  deriving DecidableEq, Repr

/-- `WAIT_TRIGGER`: what ends a WaitKeyPress (R224). -/
inductive WaitTrigger
  | edge
  | level
  deriving DecidableEq, Repr

/-- Glyphs 0 to 7 of the default font, five bytes a row (46_memory_transfer.md R241). -/
def fontGlyphs0to7 : List Byte :=
  [ 0xF0, 0x90, 0x90, 0x90, 0xF0,
    0x20, 0x60, 0x20, 0x20, 0x70,
    0xF0, 0x10, 0xF0, 0x80, 0xF0,
    0xF0, 0x10, 0xF0, 0x10, 0xF0,
    0x90, 0x90, 0xF0, 0x10, 0x10,
    0xF0, 0x80, 0xF0, 0x10, 0xF0,
    0xF0, 0x80, 0xF0, 0x90, 0xF0,
    0xF0, 0x10, 0x20, 0x40, 0x40 ]

/-- Glyphs 8 to F of the default font (R241). -/
def fontGlyphs8toF : List Byte :=
  [ 0xF0, 0x90, 0xF0, 0x90, 0xF0,
    0xF0, 0x90, 0xF0, 0x10, 0xF0,
    0xF0, 0x90, 0xF0, 0x90, 0x90,
    0xE0, 0x90, 0xE0, 0x90, 0xE0,
    0xF0, 0x80, 0x80, 0x80, 0xF0,
    0xE0, 0x90, 0x90, 0x90, 0xE0,
    0xF0, 0x80, 0xF0, 0x80, 0xF0,
    0xF0, 0x80, 0xF0, 0x80, 0x80 ]

/-- The default `FONT_DATA`: 16 glyphs of 5 bytes, in digit order (R241). -/
def defaultFont : Vector Byte 80 :=
  ⟨(fontGlyphs0to7 ++ fontGlyphs8toF).toArray, by decide⟩

/-- The parameters of R7. `CYCLE_RATE` and `CLOCK_RATE` are left out: no rule depends on them (R7, D20). -/
structure Params where
  /-- `SYS_0NNN` (D2). -/
  sys0nnn : Sys0nnn := .invalid
  /-- `LOGIC_RESETS_VF` (D14). -/
  logicResetsVF : Bool := false
  /-- `LOADSTORE_INCREMENTS_I` (D15). -/
  loadStoreIncrementsI : Bool := false
  /-- `DRAW_CLIP` (D16). -/
  drawClip : Bool := false
  /-- `WAIT_TRIGGER` (D17). -/
  waitTrigger : WaitTrigger := .edge
  /-- `FONT_BASE` (D7); legal values are those of `Params.wf` (Sys2Proof/WellFormed.lean). -/
  fontBase : Addr12 := 0x000
  /-- `FONT_DATA` (D7). -/
  fontData : Vector Byte 80 := defaultFont
  deriving DecidableEq, Repr

/-- Every parameter at its default (R7). -/
def defaultParams : Params := {}

/-- The random source (R193, D19): the byte of the `n`-th draw. It has no body, so nothing can be proved of its value and
a claim holds for every byte (log 3). -/
opaque freeByte : Nat → Byte

/-- The choice WaitKeyPress makes among several candidate keys at the `n`-th draw (R223, D17). No body (log 4). -/
opaque freeChoice : Nat → Nat

end Sys2Proof.Config
end

