-- ==== Sys2Proof/Syntax.lean ====
section
/-! DEFINITION. The instructions: one constructor per row of spec/opcode_table.json (30_encoding.md R110), named after the
row's variant, with the fields of its pattern (R101). -/

namespace Sys2Proof

inductive Instr
  /-- `00E0` ClearDisplay, CLS (R203). -/
  | clearDisplay
  /-- `00EE` Return, RET (R142). -/
  | ret
  /-- `1nnn` Jump, JP nnn (R140). -/
  | jump (nnn : Addr12)
  /-- `2nnn` Call, CALL nnn (R141). -/
  | call (nnn : Addr12)
  /-- `3xkk` SkipEqualByte, SE Vx, kk (R150). -/
  | skipEqualByte (x : RegIndex) (kk : Byte)
  /-- `4xkk` SkipNotEqualByte, SNE Vx, kk (R151). -/
  | skipNotEqualByte (x : RegIndex) (kk : Byte)
  /-- `5xy0` SkipEqualRegister, SE Vx, Vy (R152). -/
  | skipEqualRegister (x y : RegIndex)
  /-- `6xkk` LoadByte, LD Vx, kk (R161). -/
  | loadByte (x : RegIndex) (kk : Byte)
  /-- `7xkk` AddByte, ADD Vx, kk (R162). -/
  | addByte (x : RegIndex) (kk : Byte)
  /-- `8xy0` LoadRegister, LD Vx, Vy (R163). -/
  | loadRegister (x y : RegIndex)
  /-- `8xy1` Or (R164). -/
  | or (x y : RegIndex)
  /-- `8xy2` And (R165). -/
  | and (x y : RegIndex)
  /-- `8xy3` Xor (R166). -/
  | xor (x y : RegIndex)
  /-- `8xy4` Add, ADD Vx, Vy (R167). -/
  | add (x y : RegIndex)
  /-- `8xy5` Subtract, SUB Vx, Vy (R168). -/
  | subtract (x y : RegIndex)
  /-- `8xy6` ShiftRight, SHR Vx; `y` is decoded and unused (R113, R169). -/
  | shiftRight (x y : RegIndex)
  /-- `8xy7` SubtractReverse, SUBN Vx, Vy (R170). -/
  | subtractReverse (x y : RegIndex)
  /-- `8xyE` ShiftLeft, SHL Vx; `y` is decoded and unused (R113, R171). -/
  | shiftLeft (x y : RegIndex)
  /-- `9xy0` SkipNotEqualRegister, SNE Vx, Vy (R153). -/
  | skipNotEqualRegister (x y : RegIndex)
  /-- `Annn` LoadIndex, LD I, nnn (R190). -/
  | loadIndex (nnn : Addr12)
  /-- `Bnnn` JumpWithOffset, JP V0, nnn (R192). -/
  | jumpWithOffset (nnn : Addr12)
  /-- `Cxkk` RandomWithMask, RND Vx, kk (R193). -/
  | randomWithMask (x : RegIndex) (kk : Byte)
  /-- `Dxyn` Draw, DRW Vx, Vy, n (R201). -/
  | draw (x y : RegIndex) (n : Nibble)
  /-- `Ex9E` SkipIfPressed, SKP Vx (R220). -/
  | skipIfPressed (x : RegIndex)
  /-- `ExA1` SkipIfNotPressed, SKNP Vx (R221). -/
  | skipIfNotPressed (x : RegIndex)
  /-- `Fx07` LoadDelayTimer, LD Vx, DT (R226). -/
  | loadDelayTimer (x : RegIndex)
  /-- `Fx0A` WaitKeyPress, LD Vx, K (R223). -/
  | waitKeyPress (x : RegIndex)
  /-- `Fx15` StoreDelayTimer, LD DT, Vx (R227). -/
  | storeDelayTimer (x : RegIndex)
  /-- `Fx18` StoreSoundTimer, LD ST, Vx (R228). -/
  | storeSoundTimer (x : RegIndex)
  /-- `Fx1E` AddToIndex, ADD I, Vx (R191). -/
  | addToIndex (x : RegIndex)
  /-- `Fx29` LoadSprite, LD F, Vx (R240). -/
  | loadSprite (x : RegIndex)
  /-- `Fx33` StoreBCD, LD B, Vx (R242). -/
  | storeBcd (x : RegIndex)
  /-- `Fx55` StoreRegisters, LD [I], Vx (R243). -/
  | storeRegisters (x : RegIndex)
  /-- `Fx65` LoadRegisters, LD Vx, [I] (R244). -/
  | loadRegisters (x : RegIndex)
  deriving DecidableEq, Repr

end Sys2Proof
end

