-- ==== Sys2Proof/WellFormed.lean ====
section
/-! DEFINITION. What is well formed: an instruction's fields (30_encoding.md R102) and the parameters (00_scope.md R7).

Each field of `Instr` has its own width as its type, so, as R102 says, the range check on an instruction "cannot fail":
no ill-formed instruction can be written, and `Instr.wf` holds of every one (Sys2Proof/Laws/PerInstr.lean proves it,
constructor by constructor). The one check that can fail is the parameters'. -/

namespace Sys2Proof

/-- A register field is 0 to 15 (R30, R102). -/
def RegIndex.inRange (x : RegIndex) : Bool := decide (x.toNat ≤ 15)

/-- A byte literal is 0 to 255 (R102). -/
def Byte.inRange (kk : Byte) : Bool := decide (kk.toNat ≤ 255)

/-- An address literal is 0 to 0xFFF (R102). -/
def Addr12.inRange (nnn : Addr12) : Bool := decide (nnn.toNat ≤ 0xFFF)

/-- Every field of the instruction is in its range (R102). -/
def Instr.wf : Instr → Bool
  | .clearDisplay => true
  | .ret => true
  | .jump nnn => Addr12.inRange nnn
  | .call nnn => Addr12.inRange nnn
  | .skipEqualByte x kk => RegIndex.inRange x && Byte.inRange kk
  | .skipNotEqualByte x kk => RegIndex.inRange x && Byte.inRange kk
  | .skipEqualRegister x y => RegIndex.inRange x && RegIndex.inRange y
  | .loadByte x kk => RegIndex.inRange x && Byte.inRange kk
  | .addByte x kk => RegIndex.inRange x && Byte.inRange kk
  | .loadRegister x y => RegIndex.inRange x && RegIndex.inRange y
  | .or x y => RegIndex.inRange x && RegIndex.inRange y
  | .and x y => RegIndex.inRange x && RegIndex.inRange y
  | .xor x y => RegIndex.inRange x && RegIndex.inRange y
  | .add x y => RegIndex.inRange x && RegIndex.inRange y
  | .subtract x y => RegIndex.inRange x && RegIndex.inRange y
  | .shiftRight x y => RegIndex.inRange x && RegIndex.inRange y
  | .subtractReverse x y => RegIndex.inRange x && RegIndex.inRange y
  | .shiftLeft x y => RegIndex.inRange x && RegIndex.inRange y
  | .skipNotEqualRegister x y => RegIndex.inRange x && RegIndex.inRange y
  | .loadIndex nnn => Addr12.inRange nnn
  | .jumpWithOffset nnn => Addr12.inRange nnn
  | .randomWithMask x kk => RegIndex.inRange x && Byte.inRange kk
  | .draw x y n => RegIndex.inRange x && RegIndex.inRange y && decide (n.toNat ≤ 15)
  | .skipIfPressed x => RegIndex.inRange x
  | .skipIfNotPressed x => RegIndex.inRange x
  | .loadDelayTimer x => RegIndex.inRange x
  | .waitKeyPress x => RegIndex.inRange x
  | .storeDelayTimer x => RegIndex.inRange x
  | .storeSoundTimer x => RegIndex.inRange x
  | .addToIndex x => RegIndex.inRange x
  | .loadSprite x => RegIndex.inRange x
  | .storeBcd x => RegIndex.inRange x
  | .storeRegisters x => RegIndex.inRange x
  | .loadRegisters x => RegIndex.inRange x

/-- `FONT_BASE + 80 <= 0x200`: the font lies in the reserved low memory (R7, D7). -/
def Config.Params.wf (p : Config.Params) : Bool := decide (p.fontBase.toNat + 80 ≤ 0x200)

end Sys2Proof
end

