-- ==== Sys2Proof/Decode.lean ====
section
/-! DEFINITION. The instruction_decoder (30_encoding.md): the opcode map as a table of rows, the total decoder, the encoder
written from the same patterns, and the host's `decodeTableWord`. -/

namespace Sys2Proof

/-! ### Fields of a word (R101) -/

/-- `x = w[11:8]`. -/
def fieldX (w : Word) : RegIndex := w.extractLsb' 8 4

/-- `y = w[7:4]`. -/
def fieldY (w : Word) : RegIndex := w.extractLsb' 4 4

/-- `n = w[3:0]`. -/
def fieldN (w : Word) : Nibble := w.extractLsb' 0 4

/-- `kk = w[7:0]`. -/
def fieldKK (w : Word) : Byte := w.extractLsb' 0 8

/-- `nnn = w[11:0]`. -/
def fieldNNN (w : Word) : Addr12 := w.extractLsb' 0 12

/-- `op = w[15:12]`. -/
def fieldOp (w : Word) : BitVec 4 := w.extractLsb' 12 4

/-! ### The opcode map (R110) -/

/-- One row of the opcode map: a word `w` selects it exactly when `w & mask = value`. -/
structure Row where
  mask : Word
  value : Word
  build : Word → Instr

/-- Rows 1 to 9 of R110. -/
def opcodeRowsControl : List Row :=
  [ ⟨0xFFFF, 0x00E0, fun _ => .clearDisplay⟩,
    ⟨0xFFFF, 0x00EE, fun _ => .ret⟩,
    ⟨0xF000, 0x1000, fun w => .jump (fieldNNN w)⟩,
    ⟨0xF000, 0x2000, fun w => .call (fieldNNN w)⟩,
    ⟨0xF000, 0x3000, fun w => .skipEqualByte (fieldX w) (fieldKK w)⟩,
    ⟨0xF000, 0x4000, fun w => .skipNotEqualByte (fieldX w) (fieldKK w)⟩,
    ⟨0xF00F, 0x5000, fun w => .skipEqualRegister (fieldX w) (fieldY w)⟩,
    ⟨0xF000, 0x6000, fun w => .loadByte (fieldX w) (fieldKK w)⟩,
    ⟨0xF000, 0x7000, fun w => .addByte (fieldX w) (fieldKK w)⟩ ]

/-- Rows 10 to 18 of R110, family 8. -/
def opcodeRowsAlu : List Row :=
  [ ⟨0xF00F, 0x8000, fun w => .loadRegister (fieldX w) (fieldY w)⟩,
    ⟨0xF00F, 0x8001, fun w => .or (fieldX w) (fieldY w)⟩,
    ⟨0xF00F, 0x8002, fun w => .and (fieldX w) (fieldY w)⟩,
    ⟨0xF00F, 0x8003, fun w => .xor (fieldX w) (fieldY w)⟩,
    ⟨0xF00F, 0x8004, fun w => .add (fieldX w) (fieldY w)⟩,
    ⟨0xF00F, 0x8005, fun w => .subtract (fieldX w) (fieldY w)⟩,
    ⟨0xF00F, 0x8006, fun w => .shiftRight (fieldX w) (fieldY w)⟩,
    ⟨0xF00F, 0x8007, fun w => .subtractReverse (fieldX w) (fieldY w)⟩,
    ⟨0xF00F, 0x800E, fun w => .shiftLeft (fieldX w) (fieldY w)⟩ ]

/-- Rows 19 to 34 of R110. -/
def opcodeRowsOther : List Row :=
  [ ⟨0xF00F, 0x9000, fun w => .skipNotEqualRegister (fieldX w) (fieldY w)⟩,
    ⟨0xF000, 0xA000, fun w => .loadIndex (fieldNNN w)⟩,
    ⟨0xF000, 0xB000, fun w => .jumpWithOffset (fieldNNN w)⟩,
    ⟨0xF000, 0xC000, fun w => .randomWithMask (fieldX w) (fieldKK w)⟩,
    ⟨0xF000, 0xD000, fun w => .draw (fieldX w) (fieldY w) (fieldN w)⟩,
    ⟨0xF0FF, 0xE09E, fun w => .skipIfPressed (fieldX w)⟩,
    ⟨0xF0FF, 0xE0A1, fun w => .skipIfNotPressed (fieldX w)⟩,
    ⟨0xF0FF, 0xF007, fun w => .loadDelayTimer (fieldX w)⟩,
    ⟨0xF0FF, 0xF00A, fun w => .waitKeyPress (fieldX w)⟩,
    ⟨0xF0FF, 0xF015, fun w => .storeDelayTimer (fieldX w)⟩,
    ⟨0xF0FF, 0xF018, fun w => .storeSoundTimer (fieldX w)⟩,
    ⟨0xF0FF, 0xF01E, fun w => .addToIndex (fieldX w)⟩,
    ⟨0xF0FF, 0xF029, fun w => .loadSprite (fieldX w)⟩,
    ⟨0xF0FF, 0xF033, fun w => .storeBcd (fieldX w)⟩,
    ⟨0xF0FF, 0xF055, fun w => .storeRegisters (fieldX w)⟩,
    ⟨0xF0FF, 0xF065, fun w => .loadRegisters (fieldX w)⟩ ]

/-- The 34 rows of R110, in the spec's order. -/
def opcodeTable : List Row := opcodeRowsControl ++ opcodeRowsAlu ++ opcodeRowsOther

/-- The word selects the row (R110). -/
def rowMatches (w : Word) (r : Row) : Bool := w &&& r.mask == r.value

/-! ### Decode (R103, R104, R112) -/

/-- What a word decodes to: an instruction of R110, the optional SysCall of R112, or `InvalidOpcode(w)`, which carries the
original word (R103). -/
inductive Decoded
  | instr (i : Instr)
  | sysCall (nnn : Addr12)
  | invalid (w : Word)
  deriving DecidableEq, Repr

/-- `decode(w)`: pure, total, reads no state but the parameter `SYS_0NNN` (R103, R104, R112). -/
def decode (sys : Config.Sys0nnn) (w : Word) : Decoded :=
  match opcodeTable.find? (rowMatches w) with
  | some r => .instr (r.build w)
  | none => if fieldOp w = 0x0 ∧ sys = .nop then .sysCall (fieldNNN w) else .invalid w

/-- The word formed from the bytes at `a` and `a + 1`, most significant byte first (20_memory.md R73). -/
def wordOfBytes (first second : Byte) : Word := first ++ second

/-- The byte of a word stored at the lower address: bits 15:8 (R73). -/
def firstByte (w : Word) : Byte := w.extractLsb' 8 8

/-- The byte of a word stored at the higher address: bits 7:0 (R73). -/
def secondByte (w : Word) : Byte := w.extractLsb' 0 8

/-- Decode the two bytes of an instruction as memory holds them (R73, R103). -/
def decodeBytes (sys : Config.Sys0nnn) (first second : Byte) : Decoded :=
  decode sys (wordOfBytes first second)

/-- The host's view of the decoder: the row's word, bit 0 its least significant bit, laid out in memory order and decoded
with the default parameters. Every instruction is 16 bits (R100), so a longer one is none of ours. -/
def decodeTableWord (nbits w : Nat) : Option Instr :=
  if nbits ≤ 16 then
    let word : Word := BitVec.ofNat 16 (w % 2 ^ nbits)
    match decodeBytes Config.defaultParams.sys0nnn (firstByte word) (secondByte word) with
    | .instr i => some i
    | .sysCall _ => none
    | .invalid _ => none
  else none

/-! ### Encode (R101, R110, R114) -/

/-- `op x y n` (R101). -/
def packXYN (op : BitVec 4) (x y : RegIndex) (n : Nibble) : Word := op ++ x ++ y ++ n

/-- `op x kk` (R101). -/
def packXKK (op : BitVec 4) (x : RegIndex) (kk : Byte) : Word := op ++ x ++ kk

/-- `op nnn` (R101). -/
def packNNN (op : BitVec 4) (nnn : Addr12) : Word := op ++ nnn

/-- The word of an instruction, written from the patterns of R110. The ignored `y` of the shifts is kept, so it round-trips
(R114). -/
def encode : Instr → Word
  | .clearDisplay => 0x00E0
  | .ret => 0x00EE
  | .jump nnn => packNNN 0x1 nnn
  | .call nnn => packNNN 0x2 nnn
  | .skipEqualByte x kk => packXKK 0x3 x kk
  | .skipNotEqualByte x kk => packXKK 0x4 x kk
  | .skipEqualRegister x y => packXYN 0x5 x y 0x0
  | .loadByte x kk => packXKK 0x6 x kk
  | .addByte x kk => packXKK 0x7 x kk
  | .loadRegister x y => packXYN 0x8 x y 0x0
  | .or x y => packXYN 0x8 x y 0x1
  | .and x y => packXYN 0x8 x y 0x2
  | .xor x y => packXYN 0x8 x y 0x3
  | .add x y => packXYN 0x8 x y 0x4
  | .subtract x y => packXYN 0x8 x y 0x5
  | .shiftRight x y => packXYN 0x8 x y 0x6
  | .subtractReverse x y => packXYN 0x8 x y 0x7
  | .shiftLeft x y => packXYN 0x8 x y 0xE
  | .skipNotEqualRegister x y => packXYN 0x9 x y 0x0
  | .loadIndex nnn => packNNN 0xA nnn
  | .jumpWithOffset nnn => packNNN 0xB nnn
  | .randomWithMask x kk => packXKK 0xC x kk
  | .draw x y n => packXYN 0xD x y n
  | .skipIfPressed x => packXKK 0xE x 0x9E
  | .skipIfNotPressed x => packXKK 0xE x 0xA1
  | .loadDelayTimer x => packXKK 0xF x 0x07
  | .waitKeyPress x => packXKK 0xF x 0x0A
  | .storeDelayTimer x => packXKK 0xF x 0x15
  | .storeSoundTimer x => packXKK 0xF x 0x18
  | .addToIndex x => packXKK 0xF x 0x1E
  | .loadSprite x => packXKK 0xF x 0x29
  | .storeBcd x => packXKK 0xF x 0x33
  | .storeRegisters x => packXKK 0xF x 0x55
  | .loadRegisters x => packXKK 0xF x 0x65

end Sys2Proof
end

