-- ==== Sys2Proof/Machine/State.lean ====
section
/-! DEFINITION. The state of chip8_core (10_state.md R46, the spec's complete table), the reasons a run can stop, and the
state after reset (70_reset_and_hazards.md R300). -/

namespace Sys2Proof.Machine

/-- The spec's faults (60_exceptions.md R261) with the info each records. A fault is no stop of the model: the meaning that
raises one TAKES it (R262, R264), answering the next state whose `status` is `halted e`. -/
inductive HaltReason
  /-- Code 1. The decode stage of a Cycle, on a word outside R110; carries the word. -/
  | invalidOpcode (w : Word)
  /-- Code 2. The fetch stage (carries the pc), and Draw, StoreBCD, StoreRegisters, LoadRegisters (the lowest bad
  address). -/
  | addressOutOfRange (a : Nat)
  /-- Code 3. Call with `sp` = 16. -/
  | stackOverflow
  /-- Code 4. Return with `sp` = 0. -/
  | stackUnderflow
  /-- Code 5. LoadRom of more than 3584 bytes; carries the length. -/
  | romTooLarge (len : Nat)
  /-- Code 6. SkipIfPressed, SkipIfNotPressed with `V[x]` > 0xF; carries the value. -/
  | keyIndexOutOfRange (v : Byte)
  deriving DecidableEq, Repr

/-- `status` (10_state.md R45). -/
inductive Status
  | running
  | halted (e : HaltReason)
  deriving DecidableEq, Repr

/-- The operations of 00_scope.md R5 that change the core, as the driver and the input collaborator issue them. LoadRom
stands only in `launch`, which is Reset followed by one LoadRom: the spec says a model defines that pair and does not model
LoadRom at any other time (70_reset_and_hazards.md R305; log 6). -/
inductive DriverOp
  | cycle
  | clockTick
  | setKey (k : KeyIndex) (pressed : Bool)
  | reset
  | launch (rom : List Byte)
  deriving DecidableEq, Repr

/-- Memory: the bytes that differ from what reset leaves, at rising addresses (Sys2Proof/Machine/Memory.lean; log 7). -/
abbrev Memory := List Host.Cell

/-- The whole state. The fields down to `status` are the spec's (R46); the last three are the model's own: the parameters
of 00_scope.md R7 (log 1), the counter of free values (log 3) and the operations still to come (log 5). -/
structure State where
  /-- `V[0]` to `V[0xF]` (R30). -/
  v : Vector Byte 16
  /-- The index register `I` (R32). -/
  i : Word
  /-- The delay timer `DT` (R38). -/
  dt : Byte
  /-- The sound timer `ST` (R39). -/
  st : Byte
  /-- The program counter (R33). -/
  pc : Word
  /-- The number of return addresses on the stack, 0 to 16 (R35). -/
  sp : Byte
  /-- `stack[0]` to `stack[15]` (R36). -/
  stack : Vector Word 16
  /-- The memory image (20_memory.md R70). -/
  mem : Memory
  /-- `disp[r][c]`, 32 rows of 64 pixels (R41). -/
  disp : Vector (Vector Bool 64) 32
  /-- `keys[k]`, true when pressed (R42). -/
  keys : Vector Bool 16
  /-- The keys at the end of the last completed Cycle (R43). -/
  keyPrev : Vector Bool 16
  /-- `Running` or `Halted(e)` (R45). -/
  status : Status
  /-- The parameters (00_scope.md R7); no operation writes them. -/
  params : Config.Params
  /-- How many free values have been drawn. -/
  draws : Nat
  /-- The operations the outside issues next, oldest first; when there is none, the driver issues a Cycle. -/
  driver : List DriverOp
  deriving DecidableEq, Repr

/-- Why a step can stop with no next state. No rule of the spec is behind it: the spec's own faults are `HaltReason`. -/
inductive Fault
  /-- Raised by Return (00EE) when `sp` > 16, where R35's invariant `sp <= 16` is already broken and no rule says what is
  popped. No run reaches such a state. Safe: the model stops where the spec says nothing (log 8). -/
  | stackPointerOutOfRange
  deriving DecidableEq, Repr

/-- Why the model refuses an instruction. -/
inductive Refusal
  /-- An instruction without a meaning, by its mnemonic: no arm of `exec` answers it now. Safe. -/
  | notModelled (mnemonic : String)
  deriving DecidableEq, Repr

/-- The state after `Reset` with the given parameters (R300, R46): memory lists nothing, since an unlisted address reads as
what reset leaves there. -/
def State.resetWith (p : Config.Params) : State where
  v := Vector.replicate 16 0
  i := 0
  dt := 0
  st := 0
  pc := 0x200
  sp := 0
  stack := Vector.replicate 16 0
  mem := []
  disp := Vector.replicate 32 (Vector.replicate 64 false)
  keys := Vector.replicate 16 false
  keyPrev := Vector.replicate 16 false
  status := .running
  params := p
  draws := 0
  driver := []

/-- The machine right after reset: the spec's values (R300), its default parameters (R7; log 1), and the model's own fields
at 0 draws and no pending operation (logs 3 and 5). -/
def State.reset : State := State.resetWith Config.defaultParams

end Sys2Proof.Machine
end

