-- ==== Sys2Proof/Machine/Memory.lean ====
section
/-! DEFINITION. The memory image (20_memory.md R70 to R72): what an unlisted address reads as, the one canonical form, and
reads and writes of one byte. An address here is a plain number below 4096; bounds are checked by the callers
(Sys2Proof/Machine/Operands.lean). -/

namespace Sys2Proof.Machine

/-- The size of the memory image: addresses 0x000 to 0xFFF (R70). -/
abbrev memorySize : Nat := 4096

/-- What reset leaves at an address, and so what an unlisted address reads as: the font at `FONT_BASE`, zero elsewhere
(70_reset_and_hazards.md R300, D6; log 7). -/
def initialByte (p : Config.Params) (a : Nat) : Byte :=
  if p.fontBase.toNat ≤ a then (p.fontData[a - p.fontBase.toNat]?).getD 0 else 0

/-- The byte listed for an address, if one is. -/
def Memory.find : Memory → Nat → Option Byte
  | [], _ => none
  | (k, b) :: m, a => if k = a then some b else Memory.find m a

/-- The byte at an address. -/
def Memory.read (p : Config.Params) (m : Memory) (a : Nat) : Byte := (Memory.find m a).getD (initialByte p a)

/-- Drop an address from the list. -/
def Memory.erase : Memory → Nat → Memory
  | [], _ => []
  | (k, c) :: m, a => if k = a then Memory.erase m a else (k, c) :: Memory.erase m a

/-- List a byte at its place in the rising order of addresses. -/
def Memory.insert : Memory → Nat → Byte → Memory
  | [], a, b => [(a, b)]
  | (k, c) :: m, a, b =>
    if a < k then (a, b) :: (k, c) :: m
    else if a = k then (a, b) :: m
    else (k, c) :: Memory.insert m a b

/-- Write a byte, keeping the canonical form: the value an unlisted address reads as is not listed. -/
def Memory.write (p : Config.Params) (m : Memory) (a : Nat) (b : Byte) : Memory :=
  if b = initialByte p a then Memory.erase m a else Memory.insert m a b

/-- Write consecutive bytes from an address upward. -/
def Memory.writeBytes (p : Config.Params) (m : Memory) (a : Nat) : List Byte → Memory
  | [] => m
  | b :: bs => Memory.writeBytes p (Memory.write p m a b) (a + 1) bs

/-- The canonical form from address `lo` on: rising addresses below 4096, and no entry that an unlisted address would read
as. -/
def Memory.wfFrom (p : Config.Params) : Nat → Memory → Bool
  | _, [] => true
  | lo, (k, b) :: m =>
    decide (lo ≤ k) && decide (k < memorySize) && decide (b ≠ initialByte p k) && Memory.wfFrom p (k + 1) m

/-- The canonical form, so that equal memories are equal lists. -/
def Memory.wf (p : Config.Params) (m : Memory) : Bool := Memory.wfFrom p 0 m

end Sys2Proof.Machine
end

