-- ==== Sys2Proof/Machine/Ops.lean ====
section
/-! DEFINITION. The named reads and writes of the state, taking a fault, the control-flow steps every instruction shares, the
stack, and the fetch. -/

namespace Sys2Proof.Machine

/-- What a step or a meaning answers. -/
abbrev Result := Host.Outcome State Fault Refusal

/-! ### Reads -/

/-- `V[x]` (10_state.md R30). -/
def State.reg (s : State) (x : RegIndex) : Byte := s.v[x.toNat]'(x.isLt)

/-- `stack[j]` (R36). -/
def State.stackAt (s : State) (j : Fin 16) : Word := s.stack[j]

/-- `Mem[a]` (20_memory.md R70), for `a` below 4096. -/
def State.readByte (s : State) (a : Nat) : Byte := Memory.read s.params s.mem a

/-- `keys[k]` (R42). -/
def State.key (s : State) (k : KeyIndex) : Bool := s.keys[k.toNat]'(k.isLt)

/-- `key_prev[k]` (R43). -/
def State.prevKey (s : State) (k : KeyIndex) : Bool := s.keyPrev[k.toNat]'(k.isLt)

/-- `disp[r][c]` (R41). -/
def State.pixel (s : State) (r : Fin 32) (c : Fin 64) : Bool := s.disp[r][c]

/-! ### Writes -/

/-- `V[x] <- b` (R30). No register is hardwired. -/
def State.setReg (s : State) (x : RegIndex) (b : Byte) : State := { s with v := s.v.set x.toNat b x.isLt }

/-- `I <- w` (R32). -/
def State.setIndex (s : State) (w : Word) : State := { s with i := w }

/-- `DT <- b` (R38). -/
def State.setDelay (s : State) (b : Byte) : State := { s with dt := b }

/-- `ST <- b` (R39). -/
def State.setSound (s : State) (b : Byte) : State := { s with st := b }

/-- `pc <- target` (R33). -/
def State.setPc (s : State) (target : Word) : State := { s with pc := target }

/-- Write consecutive memory bytes from `a` upward, within the image (20_memory.md R75). -/
def State.storeBytes (s : State) (a : Nat) (bs : List Byte) : State :=
  { s with mem := Memory.writeBytes s.params s.mem a bs }

/-- Replace the display buffer (R41). -/
def State.setDisplay (s : State) (d : Vector (Vector Bool 64) 32) : State := { s with disp := d }

/-- `keys[k] <- b` (R42). -/
def State.writeKey (s : State) (k : KeyIndex) (b : Bool) : State := { s with keys := s.keys.set k.toNat b k.isLt }

/-- `key_prev <- keys` (R43). -/
def State.sampleKeys (s : State) : State := { s with keyPrev := s.keys }

/-- Move on to the next free value (log 3). -/
def State.nextDraw (s : State) : State := { s with draws := s.draws + 1 }

/-- Replace the operations still to come (log 5). -/
def State.setDriver (s : State) (ops : List DriverOp) : State := { s with driver := ops }

/-! ### Faults (60_exceptions.md R261 to R265) -/

/-- `status <- Halted(e)`, and nothing else (R262). -/
def State.halt (s : State) (e : HaltReason) : State := { s with status := .halted e }

/-- `raise e`: TAKE a fault, the one shared operation. Every caller raises before it writes anything, so the state is the one
at the start of the Cycle; `pc` stays at the faulting instruction; no vector, no saved register, no mode (R262, R264).
There is no return from a fault: only Reset leaves `Halted` (R265, R300). -/
def raise (e : HaltReason) (s : State) : Result := .next (s.halt e)

/-- Fault codes 1 to 6 (R261). -/
def HaltReason.code : HaltReason → Nat
  | .invalidOpcode _ => 1
  | .addressOutOfRange _ => 2
  | .stackOverflow => 3
  | .stackUnderflow => 4
  | .romTooLarge _ => 5
  | .keyIndexOutOfRange _ => 6

/-! ### The program counter (R33, R34; 41_conditional_skip.md R154) -/

/-- `pc_next = (pc + 2) mod 2^16`, the already-advanced pc (R33). -/
def State.pcNext (s : State) : Word := s.pc + 2

/-- `pc <- pc_next`. -/
def State.advance (s : State) : State := s.setPc s.pcNext

/-- The common skip step: `(pc + 4) mod 2^16` if the condition holds, else `pc_next` (R154). -/
def State.skipIf (s : State) (c : Bool) : State := s.setPc (if c then s.pc + 4 else s.pcNext)

/-! ### The stack (R35 to R37) -/

/-- `stack[sp] <- a; sp <- sp + 1`, for `sp < 16` (40_control_transfer.md R141). -/
def State.push (s : State) (a : Word) : State :=
  { s with stack := s.stack.setIfInBounds s.sp.toNat a, sp := s.sp + 1 }

/-- `sp <- sp - 1`; the popped entry keeps its value (R36, R142). -/
def State.dropTop (s : State) : State := { s with sp := s.sp - 1 }

/-- `stack[sp - 1]`, the entry Return reads; `none` only where `sp > 16` (log 8). -/
def State.top (s : State) : Option Word := s.stack[(s.sp - 1).toNat]?

/-! ### Fetch (20_memory.md R73, R74, R77) -/

/-- `zext(pc) + 1 < 4096`: the fetch at `pc` is legal (R74). -/
def State.canFetch (s : State) : Bool := decide (s.pc.toNat + 1 < memorySize)

/-- The big-endian word at an address (R73). -/
def State.wordAt (s : State) (a : Nat) : Word := wordOfBytes (s.readByte a) (s.readByte (a + 1))

/-- The fetch of a Cycle: the word at `pc`, or `AddressOutOfRange(pc)` (R74). -/
def State.fetch (s : State) : Except HaltReason Word :=
  if s.canFetch then .ok (s.wordAt s.pc.toNat) else .error (.addressOutOfRange s.pc.toNat)

/-- The end of a Cycle: one that does not end in a fault samples the keys as its last action (10_state.md R43, R260). -/
def State.endCycle (s : State) : State :=
  match s.status with
  | .running => s.sampleKeys
  | .halted _ => s

/-- `endCycle` of whatever the instruction answered. -/
def endOfCycle : Result → Result
  | .next s => .next s.endCycle
  | .fault f => .fault f
  | .refused r => .refused r

/-- SysCall(nnn), the optional 0nnn: only `pc <- pc_next` (30_encoding.md R112). -/
def execSysCall (s : State) : Result := .next s.advance

end Sys2Proof.Machine
end

