-- ==== Sys2Proof/Machine/Operands.lean ====
section
/-! DEFINITION. Operand forms: addresses relative to I with their one range check (20_memory.md R75, R76), the register list of
the bulk transfers, decimal digits, the font address, the key index and the key event. Literal operands `kk` and `nnn` are
used as they stand (30_encoding.md R102). -/

namespace Sys2Proof.Machine

/-- `zext_16(nnn)` (30_encoding.md R102). -/
def zextAddr (nnn : Addr12) : Word := nnn.setWidth 16

/-- `zext_16(V[x])` (43_index_random.md R191, R192). -/
def zextByte (b : Byte) : Word := b.setWidth 16

/-- The effective address `I + k`, an exact integer: no wrap (R75). -/
def State.ea (s : State) (k : Nat) : Nat := s.i.toNat + k

/-- Some address of `I .. I + len - 1` is 4096 or more; an empty range never is (R76). -/
def State.outOfRange (s : State) (len : Nat) : Bool := decide (0 < len ∧ memorySize < s.ea len)

/-- The fault of an out-of-range access: its lowest bad address, `max(I, 0x1000)` (R76). -/
def State.rangeFault (s : State) : HaltReason := .addressOutOfRange (max s.i.toNat 0x1000)

/-- `x + 1`, how many registers `0 .. x` the bulk transfers move (46_memory_transfer.md R243, R244). -/
def transferLength (x : RegIndex) : Nat := x.toNat + 1

/-- The values of `V[0] .. V[x]`, in order (R243). -/
def State.regList (s : State) (x : RegIndex) : List Byte :=
  (List.range (transferLength x)).map fun k => s.reg (BitVec.ofNat 4 k)

/-- `for i in 0 .. x: V[i] <- Mem[I + i]` (R244). -/
def State.loadRegs (s : State) (x : RegIndex) : State :=
  (List.range (transferLength x)).foldl (fun t k => t.setReg (BitVec.ofNat 4 k) (s.readByte (s.ea k))) s

/-- I after a bulk transfer: `(I + x + 1) mod 2^16` with LOADSTORE_INCREMENTS_I, else unchanged (R243, R244). -/
def State.bumpIndex (s : State) (x : RegIndex) : State :=
  if s.params.loadStoreIncrementsI then s.setIndex (s.i + BitVec.ofNat 16 (transferLength x)) else s

/-- The hundreds, tens and ones of a byte, in this order (R242). -/
def bcdDigits (b : Byte) : List Byte :=
  [BitVec.ofNat 8 (b.toNat / 100), BitVec.ofNat 8 (b.toNat / 10 % 10), BitVec.ofNat 8 (b.toNat % 10)]

/-- The address of the glyph for the low nibble of a byte: `zext_16(FONT_BASE) + 5 * (b & 0x0F)` (R240). -/
def glyphAddress (p : Config.Params) (b : Byte) : Word :=
  zextAddr p.fontBase + 5 * zextByte (b &&& 0x0F)

/-- The key a register selects: none for a value above 0xF (45_input_timers.md R222). -/
def keyOf (b : Byte) : Option KeyIndex := if b.toNat ≤ 0xF then some (b.setWidth 4) else none

/-- `k` is a candidate of a key event: it is down and, with WAIT_TRIGGER = Edge, was up at the end of the last Cycle
(R224). -/
def State.isCandidate (s : State) (k : KeyIndex) : Bool :=
  s.key k && (decide (s.params.waitTrigger = .level) || !s.prevKey k)

/-- Every key index, 0 to 15. -/
def allKeys : List KeyIndex := (List.range 16).map (BitVec.ofNat 4)

/-- The candidate set E (R224). -/
def State.candidates (s : State) : List KeyIndex := allKeys.filter s.isCandidate

/-- One of the candidates: the only one, or whichever the free value chooses; none of an empty set (R223; log 4). -/
def chooseKey (choice : Nat) : List KeyIndex → Option KeyIndex
  | [] => none
  | [k] => some k
  | k :: ks => (k :: ks)[choice % (ks.length + 1)]?

end Sys2Proof.Machine
end

