-- ==== Sys2Proof/Machine/Flags.lean ====
section
/-! DEFINITION. The flag register VF (10_state.md R31, R40) and every flag computation (42_register_alu.md R160, R172). -/

namespace Sys2Proof.Machine

/-- VF is `V[0xF]` (R31). -/
abbrev flagReg : RegIndex := 0xF

/-- A flag's value as a byte: 1 or 0. -/
def flagByte (b : Bool) : Byte := if b then 1 else 0

/-- `V[0xF] <- f`. -/
def State.setFlag (s : State) (f : Byte) : State := s.setReg flagReg f

/-- The carry out of bit 7 of `a + b` (R167). -/
def carryFlag (a b : Byte) : Byte := flagByte (decide (256 ≤ a.toNat + b.toNat))

/-- NOT borrow of `a - b` (R168, R170). -/
def notBorrowFlag (a b : Byte) : Byte := flagByte (decide (b.toNat ≤ a.toNat))

/-- The bit a right shift moves out: bit 0 (R169). -/
def shiftRightFlag (a : Byte) : Byte := a &&& 1

/-- The bit a left shift moves out: bit 7 (R171). -/
def shiftLeftFlag (a : Byte) : Byte := (a >>> 7) &&& 1

/-- VF after Or, And, Xor: 0 with LOGIC_RESETS_VF, else untouched (R164 to R166). -/
def State.logicFlag (s : State) : State := if s.params.logicResetsVF then s.setFlag 0 else s

/-- Write a result and then, last, the flag (R160 point 3, 90_conflicts.md C4), and advance. -/
def State.writeWithFlag (s : State) (x : RegIndex) (result flag : Byte) : State :=
  ((s.setReg x result).setFlag flag).advance

/-- Write a logic result, then VF as the parameter says, and advance. -/
def State.writeLogic (s : State) (x : RegIndex) (result : Byte) : State :=
  (s.setReg x result).logicFlag.advance

end Sys2Proof.Machine
end

