-- ==== Sys2Proof/Machine/Alu.lean ====
section
/-! DEFINITION. Register loads and the 8-bit ALU (42_register_alu.md R160 to R172). Operands are read from the state before
any write; the flag is written last. -/

namespace Sys2Proof.Machine

/-- `6xkk` LoadByte (R161). -/
def execLoadByte (x : RegIndex) (kk : Byte) (s : State) : Result := .next (s.setReg x kk).advance

/-- `7xkk` AddByte: no flag (R162). -/
def execAddByte (x : RegIndex) (kk : Byte) (s : State) : Result := .next (s.setReg x (s.reg x + kk)).advance

/-- `8xy0` LoadRegister (R163). -/
def execLoadRegister (x y : RegIndex) (s : State) : Result := .next (s.setReg x (s.reg y)).advance

/-- `8xy1` Or (R164). -/
def execOr (x y : RegIndex) (s : State) : Result := .next (s.writeLogic x (s.reg x ||| s.reg y))

/-- `8xy2` And (R165). -/
def execAnd (x y : RegIndex) (s : State) : Result := .next (s.writeLogic x (s.reg x &&& s.reg y))

/-- `8xy3` Xor (R166). -/
def execXor (x y : RegIndex) (s : State) : Result := .next (s.writeLogic x (s.reg x ^^^ s.reg y))

/-- `8xy4` Add (R167). -/
def execAdd (x y : RegIndex) (s : State) : Result :=
  .next (s.writeWithFlag x (s.reg x + s.reg y) (carryFlag (s.reg x) (s.reg y)))

/-- `8xy5` Subtract (R168). -/
def execSubtract (x y : RegIndex) (s : State) : Result :=
  .next (s.writeWithFlag x (s.reg x - s.reg y) (notBorrowFlag (s.reg x) (s.reg y)))

/-- `8xy7` SubtractReverse (R170). -/
def execSubtractReverse (x y : RegIndex) (s : State) : Result :=
  .next (s.writeWithFlag x (s.reg y - s.reg x) (notBorrowFlag (s.reg y) (s.reg x)))

/-- `8xy6` ShiftRight: reads `V[x]` only (R169, R113). -/
def execShiftRight (x : RegIndex) (s : State) : Result :=
  .next (s.writeWithFlag x (s.reg x >>> 1) (shiftRightFlag (s.reg x)))

/-- `8xyE` ShiftLeft: reads `V[x]` only (R171, R113). -/
def execShiftLeft (x : RegIndex) (s : State) : Result :=
  .next (s.writeWithFlag x (s.reg x <<< 1) (shiftLeftFlag (s.reg x)))

end Sys2Proof.Machine
end

