-- ==== Sys2Proof/Machine/Control.lean ====
section
/-! DEFINITION. Control transfer (40_control_transfer.md): Jump, Call, Return. -/

namespace Sys2Proof.Machine

/-- `1nnn` Jump (R140). -/
def execJump (nnn : Addr12) (s : State) : Result := .next (s.setPc (zextAddr nnn))

/-- `2nnn` Call (R141): the bound is checked before anything is written. -/
def execCall (nnn : Addr12) (s : State) : Result :=
  if 16 ≤ s.sp.toNat then raise .stackOverflow s
  else .next ((s.push s.pcNext).setPc (zextAddr nnn))

/-- `00EE` Return (R142). -/
def execReturn (s : State) : Result :=
  if s.sp = 0 then raise .stackUnderflow s
  else match s.top with
    | some a => .next (s.dropTop.setPc a)
    | none => .fault .stackPointerOutOfRange

end Sys2Proof.Machine
end

