-- ==== Sys2Proof/Machine/Display.lean ====
section
/-! DEFINITION. The display (44_display.md R200 to R203): Draw, ClearDisplay. -/

namespace Sys2Proof.Machine

/-- The display buffer: 32 rows of 64 pixels (10_state.md R41). -/
abbrev Display := Vector (Vector Bool 64) 32

/-- The display while a Draw runs, with the collision seen so far (R201). -/
abbrev DrawState := Display × Bool

/-- `disp[r][c]`, with the coordinates wrapped (R41, R201). -/
def Display.get (d : Display) (r c : Nat) : Bool :=
  (d[r % 32]'(Nat.mod_lt _ (by decide)))[c % 64]'(Nat.mod_lt _ (by decide))

/-- `disp[r][c] <- b`, with the coordinates wrapped. -/
def Display.put (d : Display) (r c : Nat) (b : Bool) : Display :=
  d.set (r % 32) ((d[r % 32]'(Nat.mod_lt _ (by decide))).set (c % 64) b (Nat.mod_lt _ (by decide)))
    (Nat.mod_lt _ (by decide))

/-- A pixel past the right or bottom edge is left out under DRAW_CLIP (R201). -/
def clipped (clip : Bool) (px py : Nat) : Bool := clip && (decide (64 ≤ px) || decide (32 ≤ py))

/-- One set sprite bit at column `px`, row `py`: test for collision, then toggle (R201, 70_reset_and_hazards.md R312). -/
def plot (clip : Bool) (py px : Nat) (d : DrawState) : DrawState :=
  if clipped clip px py then d
  else (Display.put d.1 py px (!Display.get d.1 py px), d.2 || Display.get d.1 py px)

/-- Bit `7 - c` of a sprite row is its pixel at column offset `c`: bit 7 is the leftmost (R200). -/
def rowBit (row : Byte) (c : Nat) : Bool := row.getLsbD (7 - c)

/-- One sprite row at `(x0, py)`, columns left to right (R201). -/
def drawRow (clip : Bool) (x0 py : Nat) (row : Byte) (d : DrawState) : DrawState :=
  (List.range 8).foldl (fun d c => if rowBit row c then plot clip py (x0 + c) d else d) d

/-- The column and row Draw starts at: `V[x] mod 64`, `V[y] mod 32` (R201). -/
def State.drawColumn (s : State) (x : RegIndex) : Nat := (s.reg x).toNat % 64

/-- The row Draw starts at. -/
def State.drawRow0 (s : State) (y : RegIndex) : Nat := (s.reg y).toNat % 32

/-- The whole sprite, rows top to bottom, from a clear collision (R201). -/
def State.drawSprite (s : State) (x y : RegIndex) (n : Nibble) : DrawState :=
  (List.range n.toNat).foldl
    (fun d r => drawRow s.params.drawClip (s.drawColumn x) (s.drawRow0 y + r) (s.readByte (s.ea r)) d)
    (s.disp, false)

/-- `Dxyn` Draw (R201): the range check first, VF last. -/
def execDraw (x y : RegIndex) (n : Nibble) (s : State) : Result :=
  if s.outOfRange n.toNat then raise s.rangeFault s
  else .next (((s.setDisplay (s.drawSprite x y n).1).setFlag (flagByte (s.drawSprite x y n).2)).advance)

/-- Every pixel 0 (R203). -/
def clearScreen : Display := Vector.replicate 32 (Vector.replicate 64 false)

/-- `00E0` ClearDisplay (R203). -/
def execClearDisplay (s : State) : Result := .next (s.setDisplay clearScreen).advance

end Sys2Proof.Machine
end

