-- ==== Sys2Proof/Machine/Index.lean ====
section
/-! DEFINITION. Index register, jump with offset, random (43_index_random.md R190 to R193). -/

namespace Sys2Proof.Machine

/-- `Annn` LoadIndex (R190). -/
def execLoadIndex (nnn : Addr12) (s : State) : Result := .next (s.setIndex (zextAddr nnn)).advance

/-- `Fx1E` AddToIndex: 16-bit wrap, no flag (R191). -/
def execAddToIndex (x : RegIndex) (s : State) : Result := .next (s.setIndex (s.i + zextByte (s.reg x))).advance

/-- `Bnnn` JumpWithOffset: the offset is `V[0]`, the sum is not masked (R192). -/
def execJumpWithOffset (nnn : Addr12) (s : State) : Result :=
  .next (s.setPc (zextByte (s.reg 0) + zextAddr nnn))

/-- RandomWithMask with the drawn byte `r` as an input of the step (R193). -/
def randomWithMask (r : Byte) (x : RegIndex) (kk : Byte) (s : State) : State :=
  (s.setReg x (r &&& kk)).advance

/-- `Cxkk` RandomWithMask: each one draws one fresh free byte (R193; log 3). -/
def execRandomWithMask (x : RegIndex) (kk : Byte) (s : State) : Result :=
  .next (randomWithMask (Config.freeByte s.draws) x kk s).nextDraw

end Sys2Proof.Machine
end

