-- ==== Sys2Proof/Machine/Input.lean ====
section
/-! DEFINITION. Key input and timers (45_input_timers.md R220 to R228). -/

namespace Sys2Proof.Machine

/-- `Ex9E` SkipIfPressed (R220, R222). -/
def execSkipIfPressed (x : RegIndex) (s : State) : Result :=
  match keyOf (s.reg x) with
  | some k => .next (s.skipIf (s.key k))
  | none => raise (.keyIndexOutOfRange (s.reg x)) s

/-- `ExA1` SkipIfNotPressed (R221, R222). -/
def execSkipIfNotPressed (x : RegIndex) (s : State) : Result :=
  match keyOf (s.reg x) with
  | some k => .next (s.skipIf (!s.key k))
  | none => raise (.keyIndexOutOfRange (s.reg x)) s

/-- WaitKeyPress with the free choice among the candidates as an input of the step: no candidate leaves the state as it is,
so the instruction executes again at the next Cycle (R223). -/
def waitKeyPress (choice : Nat) (x : RegIndex) (s : State) : State :=
  match chooseKey choice s.candidates with
  | none => s
  | some k => (s.setReg x (k.setWidth 8)).advance.nextDraw

/-- `Fx0A` WaitKeyPress (R223; log 4). -/
def execWaitKeyPress (x : RegIndex) (s : State) : Result := .next (waitKeyPress (Config.freeChoice s.draws) x s)

/-- `Fx07` LoadDelayTimer (R226). -/
def execLoadDelayTimer (x : RegIndex) (s : State) : Result := .next (s.setReg x s.dt).advance

/-- `Fx15` StoreDelayTimer (R227). -/
def execStoreDelayTimer (x : RegIndex) (s : State) : Result := .next (s.setDelay (s.reg x)).advance

/-- `Fx18` StoreSoundTimer (R228). -/
def execStoreSoundTimer (x : RegIndex) (s : State) : Result := .next (s.setSound (s.reg x)).advance

end Sys2Proof.Machine
end

