-- ==== Sys2Proof/Machine/Skip.lean ====
section
/-! DEFINITION. Conditional skips on registers (41_conditional_skip.md R150 to R154). -/

namespace Sys2Proof.Machine

/-- `3xkk` SkipEqualByte (R150). -/
def execSkipEqualByte (x : RegIndex) (kk : Byte) (s : State) : Result := .next (s.skipIf (s.reg x == kk))

/-- `4xkk` SkipNotEqualByte (R151). -/
def execSkipNotEqualByte (x : RegIndex) (kk : Byte) (s : State) : Result := .next (s.skipIf (s.reg x != kk))

/-- `5xy0` SkipEqualRegister (R152). -/
def execSkipEqualRegister (x y : RegIndex) (s : State) : Result := .next (s.skipIf (s.reg x == s.reg y))

/-- `9xy0` SkipNotEqualRegister (R153). -/
def execSkipNotEqualRegister (x y : RegIndex) (s : State) : Result := .next (s.skipIf (s.reg x != s.reg y))

end Sys2Proof.Machine
end

