-- ==== Sys2Proof/Machine/Transfer.lean ====
section
/-! DEFINITION. Font, BCD and bulk register transfer (46_memory_transfer.md R240 to R244). Each checks its whole address range
before it reads or writes anything (20_memory.md R76). -/

namespace Sys2Proof.Machine

/-- `Fx29` LoadSprite (R240). -/
def execLoadSprite (x : RegIndex) (s : State) : Result :=
  .next (s.setIndex (glyphAddress s.params (s.reg x))).advance

/-- `Fx33` StoreBCD (R242). -/
def execStoreBcd (x : RegIndex) (s : State) : Result :=
  if s.outOfRange 3 then raise s.rangeFault s
  else .next (s.storeBytes (s.ea 0) (bcdDigits (s.reg x))).advance

/-- `Fx55` StoreRegisters (R243). -/
def execStoreRegisters (x : RegIndex) (s : State) : Result :=
  if s.outOfRange (transferLength x) then raise s.rangeFault s
  else .next ((s.storeBytes (s.ea 0) (s.regList x)).bumpIndex x).advance

/-- `Fx65` LoadRegisters (R244). -/
def execLoadRegisters (x : RegIndex) (s : State) : Result :=
  if s.outOfRange (transferLength x) then raise s.rangeFault s
  else .next ((s.loadRegs x).bumpIndex x).advance

end Sys2Proof.Machine
end

