-- ==== Sys2Proof/Machine/Dispatch.lean ====
section
/-! DEFINITION. Dispatch: one arm per instruction, each one call of its meaning. -/

namespace Sys2Proof.Machine

def exec (i : Instr) (s : State) : Host.Outcome State Fault Refusal :=
  match i with
  -- display (44_display.md)
  | .clearDisplay => Sys2Proof.Machine.execClearDisplay s
  | .draw x y n => Sys2Proof.Machine.execDraw x y n s
  -- control transfer (40_control_transfer.md)
  | .ret => Sys2Proof.Machine.execReturn s
  | .jump nnn => Sys2Proof.Machine.execJump nnn s
  | .call nnn => Sys2Proof.Machine.execCall nnn s
  -- skips (41_conditional_skip.md)
  | .skipEqualByte x kk => Sys2Proof.Machine.execSkipEqualByte x kk s
  | .skipNotEqualByte x kk => Sys2Proof.Machine.execSkipNotEqualByte x kk s
  | .skipEqualRegister x y => Sys2Proof.Machine.execSkipEqualRegister x y s
  | .skipNotEqualRegister x y => Sys2Proof.Machine.execSkipNotEqualRegister x y s
  -- loads and the ALU (42_register_alu.md)
  | .loadByte x kk => Sys2Proof.Machine.execLoadByte x kk s
  | .addByte x kk => Sys2Proof.Machine.execAddByte x kk s
  | .loadRegister x y => Sys2Proof.Machine.execLoadRegister x y s
  | .or x y => Sys2Proof.Machine.execOr x y s
  | .and x y => Sys2Proof.Machine.execAnd x y s
  | .xor x y => Sys2Proof.Machine.execXor x y s
  | .add x y => Sys2Proof.Machine.execAdd x y s
  | .subtract x y => Sys2Proof.Machine.execSubtract x y s
  | .shiftRight x _ => Sys2Proof.Machine.execShiftRight x s
  | .subtractReverse x y => Sys2Proof.Machine.execSubtractReverse x y s
  | .shiftLeft x _ => Sys2Proof.Machine.execShiftLeft x s
  -- index and random (43_index_random.md)
  | .loadIndex nnn => Sys2Proof.Machine.execLoadIndex nnn s
  | .addToIndex x => Sys2Proof.Machine.execAddToIndex x s
  | .jumpWithOffset nnn => Sys2Proof.Machine.execJumpWithOffset nnn s
  | .randomWithMask x kk => Sys2Proof.Machine.execRandomWithMask x kk s
  -- keys and timers (45_input_timers.md)
  | .skipIfPressed x => Sys2Proof.Machine.execSkipIfPressed x s
  | .skipIfNotPressed x => Sys2Proof.Machine.execSkipIfNotPressed x s
  | .waitKeyPress x => Sys2Proof.Machine.execWaitKeyPress x s
  | .loadDelayTimer x => Sys2Proof.Machine.execLoadDelayTimer x s
  | .storeDelayTimer x => Sys2Proof.Machine.execStoreDelayTimer x s
  | .storeSoundTimer x => Sys2Proof.Machine.execStoreSoundTimer x s
  -- font, BCD, bulk transfer (46_memory_transfer.md)
  | .loadSprite x => Sys2Proof.Machine.execLoadSprite x s
  | .storeBcd x => Sys2Proof.Machine.execStoreBcd x s
  | .storeRegisters x => Sys2Proof.Machine.execStoreRegisters x s
  | .loadRegisters x => Sys2Proof.Machine.execLoadRegisters x s

end Sys2Proof.Machine
end

