-- ==== Sys2Proof/Machine/Driver.lean ====
section
/-! DEFINITION. The core's side of its interface (00_scope.md R5): the operations other than Cycle, each atomic and between
Cycles, and the read-only outputs. -/

namespace Sys2Proof.Machine

/-- One timer's tick: toward zero, never below (45_input_timers.md R230). -/
def tickDown (b : Byte) : Byte := if b = 0 then 0 else b - 1

/-- `ClockTick`, whatever the status (R230). -/
def State.clockTick (s : State) : State := (s.setDelay (tickDown s.dt)).setSound (tickDown s.st)

/-- `SetKey(k, b)`, whatever the status (10_state.md R42, 60_exceptions.md R264). -/
def State.setKey (s : State) (k : KeyIndex) (b : Bool) : State := s.writeKey k b

/-- `Reset`: every state element to its reset value, in any state (70_reset_and_hazards.md R300). The parameters, the free
values still to come and the operations still to come are not the core's state and stay (log 10). -/
def State.doReset (s : State) : State :=
  { State.resetWith s.params with draws := s.draws, driver := s.driver }

/-- Where the ROM is loaded (20_memory.md R71). -/
abbrev romBase : Nat := 0x200

/-- The largest ROM, `4096 - 0x200` bytes (R304). -/
abbrev maxRomSize : Nat := 3584

/-- `LoadRom(bytes)`: copy to 0x200, or halt with RomTooLarge and leave memory unchanged (R304). -/
def State.loadRom (rom : List Byte) (s : State) : State :=
  if maxRomSize < rom.length then s.halt (.romTooLarge rom.length) else s.storeBytes romBase rom

/-- `launch(rom)`: Reset followed by one LoadRom (R305, R307). -/
def State.launch (rom : List Byte) (s : State) : State := s.doReset.loadRom rom

/-! ### Outputs, all pure reads -/

/-- `ReadDisplay`: the 64 x 32 grid (R41). -/
def State.readDisplay (s : State) : Vector (Vector Bool 64) 32 := s.disp

/-- `Status`, also what a Cycle returns (R45, R260). -/
def State.statusOut (s : State) : Status := s.status

/-- `SoundActive = (ST != 0)` (R231). -/
def State.soundActive (s : State) : Bool := s.st != 0

/-- `ReadMemory`: the 4096-byte image (60_exceptions.md R280). -/
def State.readMemory (s : State) : List Byte := (List.range memorySize).map s.readByte

/-- One uppercase hexadecimal digit. -/
def hexDigit (d : Nat) : Char := if d < 10 then Char.ofNat (48 + d) else Char.ofNat (55 + d)

/-- The last `k` hexadecimal digits of a number, most significant first. -/
def hexDigits : Nat → Nat → List Char
  | 0, _ => []
  | k + 1, n => hexDigits k (n / 16) ++ [hexDigit (n % 16)]

/-- One byte of a dump row: a space and two digits. -/
def dumpByte (b : Byte) : List Char := ' ' :: hexDigits 2 b.toNat

/-- One row of the memory dump: `OOOO: HH HH ... HH`, 16 bytes (R280, D28). -/
def State.dumpRow (s : State) (row : Nat) : String :=
  String.ofList (hexDigits 4 (16 * row) ++ [':'] ++
    (List.range 16).flatMap fun k => dumpByte (s.readByte (16 * row + k)))

/-- The memory dump: 256 rows (R280). -/
def State.memoryDump (s : State) : List String := (List.range 256).map s.dumpRow

end Sys2Proof.Machine
end

