-- ==== Sys2Proof/Machine/Cycle.lean ====
section
/-! DEFINITION. `Cycle` (60_exceptions.md R260): one fetch-decode-execute step, the driver's other operations beside it, and the
placing of an instruction word for the next fetch. -/

namespace Sys2Proof.Machine

/-- Execute a decoded word (R260). -/
def execDecoded (d : Decoded) (s : State) : Result :=
  match d with
  | .invalid w => raise (.invalidOpcode w) s
  | .sysCall _ => endOfCycle (execSysCall s)
  | .instr i => endOfCycle (exec i s)

/-- `Cycle`: halted check, fetch, decode, execute, sample the keys (R260, R263). -/
def cycle (s : State) : Result :=
  match s.status with
  | .halted _ => .next s
  | .running =>
    match s.fetch with
    | .error e => raise e s
    | .ok w => execDecoded (decode s.params.sys0nnn w) s

/-- One operation of the driver (00_scope.md R5). -/
def perform (op : DriverOp) (s : State) : Result :=
  match op with
  | .cycle => cycle s
  | .clockTick => .next s.clockTick
  | .setKey k b => .next (s.setKey k b)
  | .reset => .next s.doReset
  | .launch rom => .next (s.launch rom)

/-- The state with a word placed where the next step fetches: the core running, no operation pending, the word's bytes at `pc`
(at 0x200 where no fetch is legal at `pc`), most significant byte first (log 6). -/
def State.placeWord (s : State) (w : Word) : State :=
  let target : Word := if s.canFetch then s.pc else 0x200
  { (s.setPc target).storeBytes target.toNat [firstByte w, secondByte w] with status := .running, driver := [] }

end Sys2Proof.Machine
end

