-- ==== Sys2Proof/Machine/Step.lean ====
section
/-! DEFINITION. One step: the next operation of the driver, which is a Cycle unless another operation is pending
(00_scope.md R5, 20_memory.md R80; log 5). -/

namespace Sys2Proof.Machine

/-- The step: the pending operation, or a Cycle when none is pending. -/
def step (s : State) : Host.Outcome State Fault Refusal :=
  match s.driver with
  | [] => cycle s
  | op :: ops => perform op (s.setDriver ops)

/-- The state with an instruction of the opcode table placed at the next fetch, so that the very next step runs it. -/
def State.withFetchWord (s : State) (nbits w : Nat) : State := s.placeWord (BitVec.ofNat 16 (w % 2 ^ nbits))

end Sys2Proof.Machine
end

