-- ==== Sys2Proof/Safety.lean ====
section
/-! DEFINITION. The terms claims use: the invariants of the core, what an instruction leaves unchanged (frames), runs, and the
good and bad ends of a run (70_reset_and_hazards.md R316). -/

namespace Sys2Proof.Machine

/-! ### Invariants -/

/-- What every reachable state meets: legal parameters (00_scope.md R7), memory in its canonical form, and `sp <= 16`
(10_state.md R35). -/
abbrev State.Inv (s : State) : Prop :=
  s.params.wf = true ∧ Memory.wf s.params s.mem = true ∧ s.sp.toNat ≤ 16

/-- The bounds behind "the program counter never wraps in practice" (10_state.md R34): `pc <= 0x10FE`, and every stack entry
at most 0x1000. -/
abbrev State.AddressInv (s : State) : Prop :=
  s.pc.toNat ≤ 0x10FE ∧ ∀ j : Fin 16, (s.stackAt j).toNat ≤ 0x1000

/-- The core is running and the driver's next operation is a Cycle. -/
abbrev State.Ready (s : State) : Prop := s.status = .running ∧ s.driver = []

/-! ### Frames: parts of the state that two states agree on -/

/-- The same general registers. -/
def SameRegs (s t : State) : Prop := ∀ y, t.reg y = s.reg y

/-- The same byte at every address. -/
def SameMemory (s t : State) : Prop := ∀ a, t.readByte a = s.readByte a

/-- The same pixels. -/
def SameDisplay (s t : State) : Prop := ∀ r c, t.pixel r c = s.pixel r c

/-- The same stack pointer and stack entries. -/
def SameStack (s t : State) : Prop := t.sp = s.sp ∧ ∀ j, t.stackAt j = s.stackAt j

/-- The same timers. -/
def SameTimers (s t : State) : Prop := t.dt = s.dt ∧ t.st = s.st

/-- The same keys and the same key history. -/
def SameKeys (s t : State) : Prop := (∀ k, t.key k = s.key k) ∧ ∀ k, t.prevKey k = s.prevKey k

/-- The same status, parameters and pending operations. -/
def SameControl (s t : State) : Prop := t.status = s.status ∧ t.params = s.params ∧ t.driver = s.driver

/-- Everything but the general registers, I, pc and the draw counter is the same. -/
def SameRest (s t : State) : Prop :=
  SameTimers s t ∧ SameStack s t ∧ SameMemory s t ∧ SameDisplay s t ∧ SameKeys s t ∧ SameControl s t

/-- Everything but pc is the same. -/
def SameButPc (s t : State) : Prop := SameRegs s t ∧ t.i = s.i ∧ t.draws = s.draws ∧ SameRest s t

/-- `V[x] <- b`, `pc <- pc_next`, and nothing else. -/
def WritesReg (s t : State) (x : RegIndex) (b : Byte) : Prop :=
  t.pc = s.pc + 2 ∧ (∀ y, t.reg y = if y = x then b else s.reg y) ∧ t.i = s.i ∧ t.draws = s.draws ∧ SameRest s t

/-- `V[x] <- b`, then `V[0xF] <- f`, `pc <- pc_next`, and nothing else. With `x = 0xF` the flag wins. -/
def WritesRegThenFlag (s t : State) (x : RegIndex) (b f : Byte) : Prop :=
  t.pc = s.pc + 2 ∧ t.reg 0xF = f ∧ (∀ y, y ≠ 0xF → t.reg y = if y = x then b else s.reg y) ∧ t.i = s.i ∧
    t.draws = s.draws ∧ SameRest s t

/-- `I <- w`, `pc <- pc_next`, and nothing else. -/
def WritesIndex (s t : State) (w : Word) : Prop :=
  t.pc = s.pc + 2 ∧ t.i = w ∧ SameRegs s t ∧ t.draws = s.draws ∧ SameRest s t

/-- `pc` moves past the next instruction if `c` holds, else to it, and nothing else changes. -/
def SkipsWhen (s t : State) (c : Prop) [Decidable c] : Prop :=
  t.pc = (if c then s.pc + 4 else s.pc + 2) ∧ SameButPc s t

/-! ### Encodings (30_encoding.md R110) -/

/-- The word decodes to the instruction, under either SYS_0NNN. -/
def DecodesTo (w : Word) (i : Instr) : Prop := ∀ sys, decode sys w = .instr i

/-! ### The display under a sprite (44_display.md R201) -/

/-- A set, unclipped bit of the `n`-row sprite at `I`, placed at column `x0` and row `y0`, falls on the pixel `(r, c)`. -/
def Covers (s : State) (x0 y0 n : Nat) (r : Fin 32) (c : Fin 64) : Prop :=
  ∃ k < n, ∃ j < 8, (s.readByte (s.i.toNat + k)).getLsbD (7 - j) = true ∧
    (s.params.drawClip = true → x0 + j < 64 ∧ y0 + k < 32) ∧ (y0 + k) % 32 = r.val ∧ (x0 + j) % 64 = c.val

/-! ### Runs -/

/-- Execute instructions one after the other, without fetching them. -/
def execAll : List Instr → State → Result
  | [], s => .next s
  | i :: is, s =>
    match exec i s with
    | .next t => execAll is t
    | .fault f => .fault f
    | .refused r => .refused r

/-- The launch state of a run (R307). -/
def launched (rom : List Byte) : State := State.reset.launch rom

/-- A run ends well here: running, at a Jump to its own address (R316). -/
def State.EndsWell (s : State) : Prop :=
  s.status = .running ∧ s.pc.toNat ≤ 0xFFE ∧ s.wordAt s.pc.toNat = 0x1000 ||| s.pc

/-- A run ends badly here (R316). -/
def State.EndsBadly (s : State) : Prop := ∃ e, s.status = .halted e

end Sys2Proof.Machine
end

