-- ==== Sys2Proof/Certificates/Slice0/Obligations.lean ====
section
/-! DEFINITION. The statements for the provers. Each docstring names the rule of spec/ it formalises; where a clause rests on a
decision, derivation or supplied passage that the spec marks as its own, the docstring says so and the statement is 'derived'. -/

open Sys2Proof Sys2Proof.Machine

/-! ### Encoding and decode -/

/-- The words of 30_encoding.md R115's table, each written out from the spec. -/
def Obligations.DecodeExamplesOfTheSpec : Prop :=
  decode .invalid 0x6005 = .instr (.loadByte 0x0 0x05) ∧ decode .invalid 0x6103 = .instr (.loadByte 0x1 0x03) ∧
  decode .invalid 0x8014 = .instr (.add 0x0 0x1) ∧ decode .invalid 0x00EE = .instr .ret ∧
  decode .invalid 0x00E0 = .instr .clearDisplay ∧ decode .invalid 0x0000 = .invalid 0x0000 ∧
  decode .invalid 0x01E0 = .invalid 0x01E0 ∧ decode .invalid 0x5121 = .invalid 0x5121 ∧
  decode .invalid 0x8AB6 = .instr (.shiftRight 0xA 0xB) ∧ decode .invalid 0x800F = .invalid 0x800F ∧
  decode .invalid 0xD120 = .instr (.draw 0x1 0x2 0x0) ∧ decode .invalid 0xE29E = .instr (.skipIfPressed 0x2) ∧
  decode .invalid 0xE2A2 = .invalid 0xE2A2 ∧ decode .invalid 0xF30A = .instr (.waitKeyPress 0x3) ∧
  decode .invalid 0xFF65 = .instr (.loadRegisters 0xF) ∧ decode .invalid 0xF066 = .invalid 0xF066 ∧
  decode .invalid 0xFFFF = .invalid 0xFFFF

/-- R114: decoding the word of any instruction gives that instruction with its operand values, encoding the decoded
instruction gives the word back (the ignored `y` of the shifts is kept), any word that matches a row of R110 decodes by that row,
and a word outside every row is InvalidOpcode. For either SYS_0NNN, but for the last, which is the default's (R112). -/
def Obligations.DecodeAndEncodeAgree : Prop :=
  ∀ sys : Config.Sys0nnn,
    (∀ i : Instr, i.wf = true → decode sys (encode i) = .instr i) ∧
    (∀ (w : Word) (i : Instr), decode sys w = .instr i → encode i = w) ∧
    (∀ r ∈ opcodeTable, ∀ w : Word, w &&& r.mask = r.value → decode sys w = .instr (r.build w)) ∧
    (∀ w : Word, (∀ r ∈ opcodeTable, w &&& r.mask ≠ r.value) → decode .invalid w = .invalid w)

/-- The two-level dispatch of R104: exactly these words decode to an instruction. -/
def DispatchesTo (w : Word) : Prop :=
  (w = 0x00E0 ∨ w = 0x00EE) ∨
  (fieldOp w).toNat ∈ [0x1, 0x2, 0x3, 0x4, 0x6, 0x7, 0xA, 0xB, 0xC, 0xD] ∨
  ((fieldOp w).toNat ∈ [0x5, 0x9] ∧ fieldN w = 0x0) ∨
  (fieldOp w = 0x8 ∧ (fieldN w).toNat ∈ [0, 1, 2, 3, 4, 5, 6, 7, 0xE]) ∨
  (fieldOp w = 0xE ∧ (fieldKK w).toNat ∈ [0x9E, 0xA1]) ∨
  (fieldOp w = 0xF ∧ (fieldKK w).toNat ∈ [0x07, 0x0A, 0x15, 0x18, 0x1E, 0x29, 0x33, 0x55, 0x65])

/-- R103: decode is total, every word decodes to one instruction or fails with its own value. Which words decode is R104's
dispatch, whose strictness for families 0x0, 0x5, 0x9 is the spec's decision (92_eei_decisions.md D3). -/
def Obligations.DecodeFollowsTheDispatch : Prop :=
  ∀ w : Word, (DispatchesTo w → ∃ i, decode .invalid w = .instr i) ∧ (¬ DispatchesTo w → decode .invalid w = .invalid w)

/-- R112 without its counts: a 0nnn word other than 00E0 and 00EE is InvalidOpcode(w), or, under SYS_0NNN = Nop, a SysCall that a
Cycle runs by moving pc past it (and sampling the keys, R43); every other word decodes alike under both. SYS_0NNN is the
spec's decision D2. -/
def Obligations.SysWordsFollowTheParameter : Prop :=
  (∀ w : Word, fieldOp w = 0x0 → w ≠ 0x00E0 → w ≠ 0x00EE →
    decode .invalid w = .invalid w ∧ decode .nop w = .sysCall (fieldNNN w)) ∧
  (∀ w : Word, fieldOp w ≠ 0x0 ∨ w = 0x00E0 ∨ w = 0x00EE → decode .nop w = decode .invalid w) ∧
  (∀ (s : State) (nnn : Addr12), s.Ready → s.pc.toNat < 0xFFF →
    decode s.params.sys0nnn (s.wordAt s.pc.toNat) = .sysCall nnn →
    step s = .next { s with pc := s.pc + 2, keyPrev := s.keys })

/-! ### Fetch, the Cycle, faults -/

/-- R74 with R73's byte order: the fetch at `pc` is the big-endian word of the bytes at `pc` and `pc + 1`, odd or even, or
AddressOutOfRange(pc) when `pc >= 0xFFF`. -/
def Obligations.FetchIsBigEndianAndBounded : Prop :=
  ∀ s : State,
    (s.pc.toNat < 0xFFF → ∃ w, s.fetch = .ok w ∧
      w.toNat = (s.readByte s.pc.toNat).toNat * 256 + (s.readByte (s.pc.toNat + 1)).toNat) ∧
    (0xFFF ≤ s.pc.toNat → s.fetch = .error (.addressOutOfRange s.pc.toNat))

/-- R260: one Cycle is the halted check, then fetch, decode, execute, and, unless a fault was raised, the sampling of the keys.
When the word at `pc` decodes to `i`, the step is `exec i` of the same state. That no pending operation means a Cycle is the
model's convention (log 5). -/
def Obligations.StepRunsTheDecodedInstruction : Prop :=
  ∀ s : State, s.driver = [] →
    (∀ e, s.status = .halted e → step s = .next s) ∧
    (s.status = .running → 0xFFF ≤ s.pc.toNat → step s = .next (s.halt (.addressOutOfRange s.pc.toNat))) ∧
    (s.status = .running → s.pc.toNat < 0xFFF → ∀ w,
      decode s.params.sys0nnn (s.wordAt s.pc.toNat) = .invalid w → step s = .next (s.halt (.invalidOpcode w))) ∧
    (s.status = .running → s.pc.toNat < 0xFFF → ∀ i,
      decode s.params.sys0nnn (s.wordAt s.pc.toNat) = .instr i →
      (∀ t, exec i s = .next t → t.status = .running → step s = .next { t with keyPrev := t.keys }) ∧
      (∀ t e, exec i s = .next t → t.status = .halted e → step s = .next t) ∧
      (∀ f, exec i s = .fault f → step s = .fault f))

/-- The model's convention for the other operations of R5 (log 5): the oldest pending operation is performed, a pending Cycle as
when nothing is pending. -/
def Obligations.StepTakesThePendingOperation : Prop :=
  ∀ (s : State) (ops : List DriverOp),
    step { s with driver := .cycle :: ops } = cycle { s with driver := ops } ∧
    step { s with driver := .clockTick :: ops } = .next { s.clockTick with driver := ops } ∧
    (∀ k b, step { s with driver := .setKey k b :: ops } = .next { s.setKey k b with driver := ops }) ∧
    step { s with driver := .reset :: ops } = .next { s.doReset with driver := ops } ∧
    (∀ rom, step { s with driver := .launch rom :: ops } = .next { s.launch rom with driver := ops })

/-- R262: faults are precise. When a Cycle ends in a fault, nothing has changed but the status: every register, byte, pixel,
stack entry, sp, I, timer, key_prev and pc is as at the start of the Cycle. -/
def Obligations.FaultsArePrecise : Prop :=
  ∀ (s t : State) (e : HaltReason), s.Ready → step s = .next t → t.status = .halted e →
    t = { s with status := .halted e }

/-- R264, R230, R42, R300: while halted a Cycle changes nothing, ClockTick still decrements the timers, SetKey still writes keys,
and no sequence of these leaves Halted(e). Sticky halting is the spec's decision (D9, D20, D21). -/
def Obligations.HaltedIsLeftOnlyByReset : Prop :=
  ∀ (ops : List DriverOp) (s t : State) (e : HaltReason),
    s.status = .halted e → s.driver = ops →
    (∀ op ∈ ops, op = .cycle ∨ op = .clockTick ∨ ∃ k b, op = .setKey k b) →
    core.run ops.length s = .next t →
    t = { s with dt := t.dt, st := t.st, keys := t.keys, driver := [] } ∧ t.dt.toNat ≤ s.dt.toNat ∧ t.st.toNat ≤ s.st.toNat

/-- R300: Reset, in any state, Halted included, gives every element its reset value: zero registers, index and timers,
pc 0x200, empty stack, the font at FONT_BASE and zero elsewhere, a clear display, keys released, Running. The values of pc, sp,
stack, memory, display and keys are the spec's decisions D4 to D8, D29; that the parameters and the pending inputs stay is the
model's (log 10). -/
def Obligations.ResetGivesEveryElementItsValue : Prop :=
  ∀ s : State,
    s.doReset = { State.resetWith s.params with draws := s.draws, driver := s.driver } ∧
    (∀ x, s.doReset.reg x = 0) ∧ s.doReset.i = 0 ∧ s.doReset.dt = 0 ∧ s.doReset.st = 0 ∧ s.doReset.pc = 0x200 ∧
    s.doReset.sp = 0 ∧ (∀ j, s.doReset.stackAt j = 0) ∧ (∀ r c, s.doReset.pixel r c = false) ∧
    (∀ k, s.doReset.key k = false) ∧ (∀ k, s.doReset.prevKey k = false) ∧ s.doReset.status = .running ∧
    (∀ k : Fin 80, s.doReset.readByte (s.params.fontBase.toNat + k.val) = s.params.fontData[k]) ∧
    (∀ a, a < s.params.fontBase.toNat ∨ s.params.fontBase.toNat + 80 ≤ a → s.doReset.readByte a = 0)

/-- R304: LoadRom copies the ROM to 0x200 and leaves every other byte and every other element, or, over 3584 bytes, halts with
RomTooLarge and leaves memory unchanged (the spec's decision D24). -/
def Obligations.LoadRomCopiesOrHalts : Prop :=
  ∀ (rom : List Byte) (s : State),
    (rom.length ≤ 3584 →
      (∀ k (h : k < rom.length), (s.loadRom rom).readByte (0x200 + k) = rom[k]) ∧
      (∀ a, a < 0x200 ∨ 0x200 + rom.length ≤ a → (s.loadRom rom).readByte a = s.readByte a) ∧
      s.loadRom rom = { s with mem := (s.loadRom rom).mem }) ∧
    (3584 < rom.length → s.loadRom rom = { s with status := .halted (.romTooLarge rom.length) })

/-- R307: the launch state of a claim (the spec's decision D22), with the default parameters of R7: Running at 0x200, the font
below, the ROM from 0x200 on, zero elsewhere. -/
def Obligations.LaunchStateHoldsFontAndRom : Prop :=
  ∀ rom : List Byte, rom.length ≤ 3584 →
    (launched rom).status = .running ∧ (launched rom).pc = 0x200 ∧ (launched rom).sp = 0 ∧
    (∀ x, (launched rom).reg x = 0) ∧ (launched rom).i = 0 ∧ (launched rom).dt = 0 ∧ (launched rom).st = 0 ∧
    (∀ r c, (launched rom).pixel r c = false) ∧ (∀ k, (launched rom).key k = false) ∧
    (∀ k : Fin 80, (launched rom).readByte k.val = Config.defaultFont[k]) ∧
    (∀ k (h : k < rom.length), (launched rom).readByte (0x200 + k) = rom[k]) ∧
    (∀ a, (80 ≤ a ∧ a < 0x200) ∨ 0x200 + rom.length ≤ a → (launched rom).readByte a = 0) ∧ (launched rom).Inv

/-- R230: ClockTick takes each timer one toward zero, never below, and changes nothing else, whatever the status (the last is the
spec's decision D20). -/
def Obligations.ClockTickCountsTheTimersDown : Prop :=
  ∀ s : State,
    s.clockTick.dt.toNat = s.dt.toNat - 1 ∧ s.clockTick.st.toNat = s.st.toNat - 1 ∧
    s.clockTick = { s with dt := s.clockTick.dt, st := s.clockTick.st }

/-- R42: SetKey writes one key and nothing else, and no instruction writes a key: the keys are read-only to it. -/
def Obligations.OnlySetKeyWritesTheKeys : Prop :=
  (∀ (s : State) (k : KeyIndex) (b : Bool),
    (∀ k', (s.setKey k b).key k' = if k' = k then b else s.key k') ∧ s.setKey k b = { s with keys := (s.setKey k b).keys }) ∧
  (∀ (i : Instr) (s t : State), exec i s = .next t → t.keys = s.keys)

/-! ### Invariants and whole-machine rules -/

/-- The invariant at reset: legal parameters, canonical memory, `sp <= 16`, and the bounds behind R34. -/
def Obligations.InvariantsHoldAtReset : Prop := State.reset.Inv ∧ State.reset.AddressInv

/-- Every step keeps legal parameters, the canonical form of memory, and R35's `sp <= 16`: from every state that has them, not
only from a run. -/
def Obligations.EveryStepKeepsTheInvariant : Prop := ∀ s t : State, s.Inv → step s = .next t → t.Inv

/-- R34: the program counter never wraps in practice: `pc <= 0x10FE` and every stacked return address at most 0x1000 are kept by
every step. The spec derives it from R33 and R74. -/
def Obligations.ProgramCounterNeverWraps : Prop :=
  ∀ s t : State, s.AddressInv → step s = .next t → t.AddressInv

/-- The core always goes on: where `sp <= 16` (R35's invariant), every step and every instruction answers a next state. The one stop of
the model, Return with `sp` past 16, is the model's own (log 8) and no run reaches it. -/
def Obligations.OnlyReturnPastTheStackStops : Prop :=
  (∀ s : State, s.sp.toNat ≤ 16 → ∃ t, step s = .next t) ∧
  (∀ (i : Instr) (s : State), (∃ t, exec i s = .next t) ∨
    (i = .ret ∧ 16 < s.sp.toNat ∧ exec i s = .fault .stackPointerOutOfRange))

/-- R262 and R261: which instructions can raise a fault, and which fault each raises. Every other instruction keeps a running core
running. -/
def Obligations.OnlyTheListedInstructionsFault : Prop :=
  ∀ (i : Instr) (s t : State), exec i s = .next t →
    t.status = s.status ∨
    (∃ nnn, i = .call nnn ∧ t = s.halt .stackOverflow ∧ 16 ≤ s.sp.toNat) ∨
    (i = .ret ∧ t = s.halt .stackUnderflow ∧ s.sp = 0) ∨
    ((∃ x, i = .skipIfPressed x ∨ i = .skipIfNotPressed x) ∧ ∃ v, t = s.halt (.keyIndexOutOfRange v) ∧ 0xF < v.toNat) ∨
    ((∃ x y n, i = .draw x y n ∨ i = .storeBcd x ∨ i = .storeRegisters x ∨ i = .loadRegisters x) ∧
      t = s.halt (.addressOutOfRange (max s.i.toNat 0x1000)))

/-- R70, R78: the only instructions that write memory are StoreBCD and StoreRegisters; and a byte outside the image never
changes. -/
def Obligations.OnlyStoresWriteMemory : Prop :=
  ∀ (i : Instr) (s t : State), exec i s = .next t →
    ((∀ x, i ≠ .storeBcd x ∧ i ≠ .storeRegisters x) → t.mem = s.mem) ∧ ∀ a, 0x1000 ≤ a → t.readByte a = s.readByte a

/-- R41, R35, R36, R38, R39: the display is written only by 00E0 and Dxyn, sp and the stack only by Call and Return (entries only
by Call), DT only by Fx15, ST only by Fx18, I only by Annn, Fx1E, Fx29 and, with LOADSTORE_INCREMENTS_I, Fx55 and Fx65 (R32). -/
def Obligations.EachElementHasItsOwnWriters : Prop :=
  ∀ (i : Instr) (s t : State), exec i s = .next t →
    (t.disp ≠ s.disp → i = .clearDisplay ∨ ∃ x y n, i = .draw x y n) ∧
    (t.sp ≠ s.sp → i = .ret ∨ ∃ nnn, i = .call nnn) ∧
    (t.stack ≠ s.stack → ∃ nnn, i = .call nnn) ∧
    (t.dt ≠ s.dt → ∃ x, i = .storeDelayTimer x) ∧
    (t.st ≠ s.st → ∃ x, i = .storeSoundTimer x) ∧
    (t.i ≠ s.i → (∃ nnn, i = .loadIndex nnn) ∨ (∃ x, i = .addToIndex x ∨ i = .loadSprite x) ∨
      (s.params.loadStoreIncrementsI = true ∧ ∃ x, i = .storeRegisters x ∨ i = .loadRegisters x)) ∧
    t.keyPrev = s.keyPrev ∧ t.params = s.params ∧ t.driver = s.driver

/-- The instructions R31 lists as writers of VF as the flag. -/
def WritesVFAsFlag (p : Config.Params) : Instr → Prop
  | .add _ _ | .subtract _ _ | .shiftRight _ _ | .subtractReverse _ _ | .shiftLeft _ _ | .draw _ _ _ => True
  | .or _ _ | .and _ _ | .xor _ _ => p.logicResetsVF = true
  | _ => False

/-- The general registers an instruction names as its destination (R30). -/
def NamesDestination : Instr → RegIndex → Prop
  | .loadByte x _, z | .addByte x _, z | .loadRegister x _, z | .or x _, z | .and x _, z | .xor x _, z | .add x _, z
  | .subtract x _, z | .shiftRight x _, z | .subtractReverse x _, z | .shiftLeft x _, z | .randomWithMask x _, z
  | .loadDelayTimer x, z | .waitKeyPress x, z => z = x
  | .loadRegisters x, z => z ≤ x
  | _, _ => False

/-- R30, R31: a general register is written only by an instruction that names it as its destination, and VF besides by the
flag-writing instructions. -/
def Obligations.RegistersHaveOnlyTheListedWriters : Prop :=
  ∀ (i : Instr) (s t : State) (z : RegIndex), exec i s = .next t → t.reg z ≠ s.reg z →
    NamesDestination i z ∨ (z = 0xF ∧ WritesVFAsFlag s.params i)

/-- R39: no instruction reads ST. Two states that differ only in ST go through any instruction alike, ST itself apart. -/
def Obligations.SoundTimerIsNeverRead : Prop :=
  ∀ (i : Instr) (s : State) (b : Byte),
    (∀ t, exec i s = .next t → ∃ c, exec i { s with st := b } = .next { t with st := c } ∧
      ((∀ x, i ≠ .storeSoundTimer x) → c = b ∧ t.st = s.st)) ∧
    (∀ f, exec i s = .fault f → exec i { s with st := b } = .fault f)

/-- R36: an entry at index `>= sp` keeps its old value, and no rule reads it (the spec's decision D5). Two states that differ only
there go through any step alike, the stale entries apart. -/
def Obligations.StaleStackEntriesAreNeverRead : Prop :=
  ∀ (i : Instr) (s : State) (stack' : Vector Word 16), s.sp.toNat ≤ 16 →
    (∀ j : Fin 16, j.val < s.sp.toNat → stack'[j] = s.stackAt j) →
    ∀ t, exec i s = .next t →
      ∃ u, exec i { s with stack := stack' } = .next u ∧ { u with stack := t.stack } = t ∧
        (∀ j : Fin 16, j.val < t.sp.toNat → u.stackAt j = t.stackAt j) ∧
        (∀ j : Fin 16, s.sp.toNat < j.val → u.stackAt j = stack'[j])

/-- The canonical form of memory: two canonical memories that read alike at every address are one list. It is the model's
convention (log 7). -/
def Obligations.CanonicalMemoriesReadAlikeAreEqual : Prop :=
  ∀ (p : Config.Params) (m m' : Memory), Memory.wf p m = true → Memory.wf p m' = true →
    (∀ a, Memory.read p m a = Memory.read p m' a) → m = m'

/-! ### Control transfer -/

/-- R140 Jump. -/
def Obligations.JumpSetsThePc : Prop :=
  ∀ (nnn : Addr12) (s : State), DecodesTo (packNNN 0x1 nnn) (.jump nnn) ∧
    ∃ t, exec (.jump nnn) s = .next t ∧ t.pc.toNat = nnn.toNat ∧ SameButPc s t

/-- R141 Call: with room on the stack it pushes `pc + 2`; on a full stack it raises StackOverflow and changes nothing else. -/
def Obligations.CallPushesTheReturnAddress : Prop :=
  ∀ (nnn : Addr12) (s : State), DecodesTo (packNNN 0x2 nnn) (.call nnn) ∧
    (s.sp.toNat < 16 → ∃ t, exec (.call nnn) s = .next t ∧ t.pc.toNat = nnn.toNat ∧ t.sp.toNat = s.sp.toNat + 1 ∧
      (∀ j : Fin 16, t.stackAt j = if j.val = s.sp.toNat then s.pc + 2 else s.stackAt j) ∧
      SameRegs s t ∧ t.i = s.i ∧ t.draws = s.draws ∧ SameTimers s t ∧ SameMemory s t ∧ SameDisplay s t ∧ SameKeys s t ∧
      SameControl s t) ∧
    (16 ≤ s.sp.toNat → exec (.call nnn) s = .next (s.halt .stackOverflow))

/-- R142 Return: it pops into pc and leaves the popped entry; on an empty stack it raises StackUnderflow and changes nothing
else. -/
def Obligations.ReturnPopsIntoThePc : Prop :=
  ∀ s : State, DecodesTo 0x00EE .ret ∧
    (∀ j : Fin 16, s.sp.toNat = j.val + 1 → ∃ t, exec .ret s = .next t ∧ t.pc = s.stackAt j ∧ t.sp.toNat = j.val ∧
      (∀ k, t.stackAt k = s.stackAt k) ∧ SameRegs s t ∧ t.i = s.i ∧ t.draws = s.draws ∧ SameTimers s t ∧ SameMemory s t ∧
      SameDisplay s t ∧ SameKeys s t ∧ SameControl s t) ∧
    (s.sp = 0 → exec .ret s = .next (s.halt .stackUnderflow))

/-- R37: a Call with `sp` = 16 raises StackOverflow, a Return with `sp` = 0 raises StackUnderflow, and no instruction clamps or
wraps `sp`: it moves by one, up by a Call and down by a Return, within 0 to 16. -/
def Obligations.StackPointerFaultsAtItsBounds : Prop :=
  ∀ s : State,
    (s.sp.toNat = 16 → ∀ nnn, exec (.call nnn) s = .next (s.halt .stackOverflow)) ∧
    (s.sp = 0 → exec .ret s = .next (s.halt .stackUnderflow)) ∧
    (∀ i t, s.sp.toNat ≤ 16 → exec i s = .next t →
      t.sp.toNat ≤ 16 ∧ (t.sp = s.sp ∨ (t.sp.toNat = s.sp.toNat + 1 ∧ ∃ nnn, i = .call nnn) ∨
        (t.sp.toNat + 1 = s.sp.toNat ∧ i = .ret)))

/-- R143: k nested Calls and k Returns restore sp and continue after the first Call; the registers, timers, memory and display
are untouched. The spec derives it from R141 and R142. -/
def Obligations.NestedCallsAndReturnsBalance : Prop :=
  ∀ (targets : List Addr12) (s : State), targets ≠ [] → s.sp.toNat + targets.length ≤ 16 →
    ∃ t, execAll (targets.map Instr.call ++ List.replicate targets.length .ret) s = .next t ∧
      t = { s with pc := s.pc + 2, stack := t.stack } ∧ ∀ j : Fin 16, j.val < s.sp.toNat → t.stackAt j = s.stackAt j

/-- R143: from an empty stack 16 Calls succeed and the 17th raises StackOverflow. -/
def Obligations.SeventeenthCallOverflows : Prop :=
  ∀ (targets : List Addr12) (last : Addr12) (s : State), targets.length = 16 → s.sp = 0 →
    ∃ t, execAll (targets.map Instr.call) s = .next t ∧ t.sp.toNat = 16 ∧ t.status = s.status ∧
      exec (.call last) t = .next (t.halt .stackOverflow)

/-! ### Skips -/

/-- R150 to R154: the four register skips. -/
def Obligations.RegisterSkipsCompare : Prop :=
  ∀ (x y : RegIndex) (kk : Byte) (s : State),
    DecodesTo (packXKK 0x3 x kk) (.skipEqualByte x kk) ∧ DecodesTo (packXKK 0x4 x kk) (.skipNotEqualByte x kk) ∧
    DecodesTo (packXYN 0x5 x y 0) (.skipEqualRegister x y) ∧ DecodesTo (packXYN 0x9 x y 0) (.skipNotEqualRegister x y) ∧
    (∃ t, exec (.skipEqualByte x kk) s = .next t ∧ SkipsWhen s t (s.reg x = kk)) ∧
    (∃ t, exec (.skipNotEqualByte x kk) s = .next t ∧ SkipsWhen s t (s.reg x ≠ kk)) ∧
    (∃ t, exec (.skipEqualRegister x y) s = .next t ∧ SkipsWhen s t (s.reg x = s.reg y)) ∧
    (∃ t, exec (.skipNotEqualRegister x y) s = .next t ∧ SkipsWhen s t (s.reg x ≠ s.reg y))

/-- R220, R221 with R222: the key skips on a valid key index, and KeyIndexOutOfRange on any other value. The fault is the
spec's decision D18, and which encoding means "pressed" is its supplied knowledge (GK9). -/
def Obligations.KeySkipsReadTheKey : Prop :=
  ∀ (x : RegIndex) (s : State),
    DecodesTo (packXKK 0xE x 0x9E) (.skipIfPressed x) ∧ DecodesTo (packXKK 0xE x 0xA1) (.skipIfNotPressed x) ∧
    (∀ k : KeyIndex, (s.reg x).toNat = k.toNat →
      (∃ t, exec (.skipIfPressed x) s = .next t ∧ SkipsWhen s t (s.key k = true)) ∧
      (∃ t, exec (.skipIfNotPressed x) s = .next t ∧ SkipsWhen s t (s.key k = false))) ∧
    (0xF < (s.reg x).toNat →
      exec (.skipIfPressed x) s = .next (s.halt (.keyIndexOutOfRange (s.reg x))) ∧
      exec (.skipIfNotPressed x) s = .next (s.halt (.keyIndexOutOfRange (s.reg x))))

/-! ### Loads and the ALU -/

/-- R161 LoadByte and R162 AddByte: the byte, or the sum mod 256 with no flag. -/
def Obligations.ByteLoadAndByteAdd : Prop :=
  ∀ (x : RegIndex) (kk : Byte) (s : State),
    DecodesTo (packXKK 0x6 x kk) (.loadByte x kk) ∧ DecodesTo (packXKK 0x7 x kk) (.addByte x kk) ∧
    (∃ t, exec (.loadByte x kk) s = .next t ∧ WritesReg s t x kk) ∧
    (∃ t, exec (.addByte x kk) s = .next t ∧ WritesReg s t x (BitVec.ofNat 8 ((s.reg x).toNat + kk.toNat)))

/-- R163 LoadRegister. The whole instruction is the spec's supplied knowledge (GK2). -/
def Obligations.RegisterMoveCopies : Prop :=
  ∀ (x y : RegIndex) (s : State), DecodesTo (packXYN 0x8 x y 0x0) (.loadRegister x y) ∧
    ∃ t, exec (.loadRegister x y) s = .next t ∧ WritesReg s t x (s.reg y)

/-- R164 to R166: Or, And, Xor bit by bit, with VF as LOGIC_RESETS_VF says (the spec's decision D14). -/
def Obligations.LogicFollowsTheFlagParameter : Prop :=
  ∀ (x y : RegIndex) (s : State) (f : Bool → Bool → Bool) (i : Instr),
    (i = .or x y ∧ f = (· || ·)) ∨ (i = .and x y ∧ f = (· && ·)) ∨ (i = .xor x y ∧ f = (· ^^ ·)) →
    (DecodesTo (packXYN 0x8 x y 0x1) (.or x y) ∧ DecodesTo (packXYN 0x8 x y 0x2) (.and x y) ∧
      DecodesTo (packXYN 0x8 x y 0x3) (.xor x y)) ∧
    ∃ t b, exec i s = .next t ∧ (∀ k, k < 8 → b.getLsbD k = f ((s.reg x).getLsbD k) ((s.reg y).getLsbD k)) ∧
      (s.params.logicResetsVF = false → WritesReg s t x b) ∧ (s.params.logicResetsVF = true → WritesRegThenFlag s t x b 0)

/-- R167 Add: the sum mod 256, VF the carry. -/
def Obligations.AddSetsTheCarry : Prop :=
  ∀ (x y : RegIndex) (s : State), DecodesTo (packXYN 0x8 x y 0x4) (.add x y) ∧ ∃ t, exec (.add x y) s = .next t ∧
    WritesRegThenFlag s t x (BitVec.ofNat 8 ((s.reg x).toNat + (s.reg y).toNat))
      (if 256 ≤ (s.reg x).toNat + (s.reg y).toNat then 1 else 0)

/-- R168 Subtract: the difference mod 256, VF the NOT borrow. -/
def Obligations.SubtractSetsNotBorrow : Prop :=
  ∀ (x y : RegIndex) (s : State), DecodesTo (packXYN 0x8 x y 0x5) (.subtract x y) ∧ ∃ t, exec (.subtract x y) s = .next t ∧
    WritesRegThenFlag s t x (BitVec.ofInt 8 ((s.reg x).toNat - (s.reg y).toNat))
      (if (s.reg y).toNat ≤ (s.reg x).toNat then 1 else 0)

/-- R170 SubtractReverse. That the destination is `V[x]` is the spec's supplied knowledge (GK10, R160). -/
def Obligations.SubtractReverseSetsNotBorrow : Prop :=
  ∀ (x y : RegIndex) (s : State), DecodesTo (packXYN 0x8 x y 0x7) (.subtractReverse x y) ∧
    ∃ t, exec (.subtractReverse x y) s = .next t ∧
    WritesRegThenFlag s t x (BitVec.ofInt 8 ((s.reg y).toNat - (s.reg x).toNat))
      (if (s.reg x).toNat ≤ (s.reg y).toNat then 1 else 0)

/-- R169 ShiftRight and R171 ShiftLeft: by one bit, VF the bit shifted out, last; `y` plays no part. -/
def Obligations.ShiftsMoveOneBitIntoVF : Prop :=
  ∀ (x y : RegIndex) (s : State),
    DecodesTo (packXYN 0x8 x y 0x6) (.shiftRight x y) ∧ DecodesTo (packXYN 0x8 x y 0xE) (.shiftLeft x y) ∧
    (∃ t, exec (.shiftRight x y) s = .next t ∧
      WritesRegThenFlag s t x (BitVec.ofNat 8 ((s.reg x).toNat / 2)) (BitVec.ofNat 8 ((s.reg x).toNat % 2))) ∧
    (∃ t, exec (.shiftLeft x y) s = .next t ∧
      WritesRegThenFlag s t x (BitVec.ofNat 8 (2 * (s.reg x).toNat)) (BitVec.ofNat 8 ((s.reg x).toNat / 128)))

/-! ### Index, random, timers -/

/-- R190 LoadIndex and R192 JumpWithOffset: the sum is exact and not masked. -/
def Obligations.LoadIndexAndJumpWithOffset : Prop :=
  ∀ (nnn : Addr12) (s : State),
    DecodesTo (packNNN 0xA nnn) (.loadIndex nnn) ∧ DecodesTo (packNNN 0xB nnn) (.jumpWithOffset nnn) ∧
    (∃ t, exec (.loadIndex nnn) s = .next t ∧ WritesIndex s t (BitVec.ofNat 16 nnn.toNat)) ∧
    (∃ t, exec (.jumpWithOffset nnn) s = .next t ∧ t.pc.toNat = (s.reg 0).toNat + nnn.toNat ∧ SameButPc s t)

/-- R191 AddToIndex: 16-bit wrap, and VF unchanged even then, which the spec derives from the source's list of flag producers. -/
def Obligations.AddToIndexWrapsWithoutFlag : Prop :=
  ∀ (x : RegIndex) (s : State), DecodesTo (packXKK 0xF x 0x1E) (.addToIndex x) ∧ ∃ t, exec (.addToIndex x) s = .next t ∧
    WritesIndex s t (BitVec.ofNat 16 (s.i.toNat + (s.reg x).toNat))

/-- R193 RandomWithMask: the free byte of this draw, masked; the next draw is another. The byte is free (log 3; the spec's
decision D19): the statement holds whatever `Config.freeByte` is. -/
def Obligations.RandomByteIsMasked : Prop :=
  ∀ (x : RegIndex) (kk : Byte) (s : State), DecodesTo (packXKK 0xC x kk) (.randomWithMask x kk) ∧
    ∃ t, exec (.randomWithMask x kk) s = .next t ∧ t.pc = s.pc + 2 ∧
    (∀ y, t.reg y = if y = x then Config.freeByte s.draws &&& kk else s.reg y) ∧ t.i = s.i ∧ t.draws = s.draws + 1 ∧
    SameRest s t

/-- R226 to R228: the timer transfers. -/
def Obligations.TimerTransfersCopy : Prop :=
  ∀ (x : RegIndex) (s : State),
    DecodesTo (packXKK 0xF x 0x07) (.loadDelayTimer x) ∧ DecodesTo (packXKK 0xF x 0x15) (.storeDelayTimer x) ∧
    DecodesTo (packXKK 0xF x 0x18) (.storeSoundTimer x) ∧
    (∃ t, exec (.loadDelayTimer x) s = .next t ∧ WritesReg s t x s.dt) ∧
    (∃ t, exec (.storeDelayTimer x) s = .next t ∧ t = { s with dt := s.reg x, pc := s.pc + 2 }) ∧
    (∃ t, exec (.storeSoundTimer x) s = .next t ∧ t = { s with st := s.reg x, pc := s.pc + 2 })

/-- The candidate keys of R224. -/
def CandidateKey (s : State) (k : KeyIndex) : Prop :=
  s.key k = true ∧ (s.params.waitTrigger = .level ∨ s.prevKey k = false)

/-- R223, R224 WaitKeyPress: no candidate, nothing changes; else some candidate goes to `V[x]` and pc moves on. The trigger and the
free choice are the spec's decision D17, the write to `V[x]` its supplied knowledge (GK6); `draws` is the model's (log 4). -/
def Obligations.WaitTakesACandidateKey : Prop :=
  ∀ (x : RegIndex) (s : State), DecodesTo (packXKK 0xF x 0x0A) (.waitKeyPress x) ∧
    ((∀ k, ¬ CandidateKey s k) → exec (.waitKeyPress x) s = .next s) ∧
    ((∃ k, CandidateKey s k) → ∃ t k, exec (.waitKeyPress x) s = .next t ∧ CandidateKey s k ∧ t.pc = s.pc + 2 ∧
      (∀ y, (t.reg y).toNat = if y = x then k.toNat else (s.reg y).toNat) ∧ t.i = s.i ∧ SameRest s t)

/-- R43, R224: with WAIT_TRIGGER = Edge, a key held since the end of the last completed Cycle ends no wait: a wait that runs twice
with the keys unchanged between keeps waiting the second time. The trigger is the spec's decision D17. -/
def Obligations.HeldKeysEndNoEdgeWait : Prop :=
  ∀ (s t : State) (x : RegIndex), s.Ready → s.params.waitTrigger = .edge → step s = .next t → t.status = .running →
    t.pc.toNat < 0xFFF → decode t.params.sys0nnn (t.wordAt t.pc.toNat) = .instr (.waitKeyPress x) →
    step t = .next t

/-! ### Display -/

/-- R203 ClearDisplay. -/
def Obligations.ClearDisplayClearsEveryPixel : Prop :=
  ∀ s : State, DecodesTo 0x00E0 .clearDisplay ∧ ∃ t, exec .clearDisplay s = .next t ∧
    (∀ r c, t.pixel r c = false) ∧ t.pc = s.pc + 2 ∧ SameRegs s t ∧ t.i = s.i ∧ t.draws = s.draws ∧ SameTimers s t ∧ SameStack s t ∧ SameMemory s t ∧ SameKeys s t ∧ SameControl s t

/-- R200, R201 Draw, and with it R202's points 2 and 3: each pixel under a set, unclipped sprite bit is toggled, the others stay, and VF says whether a lit one was
toggled. The edge rule is the spec's decision D16, the bit order its supplied knowledge (GK4). -/
def Obligations.DrawTogglesThePixelsUnderTheSprite : Prop :=
  ∀ (x y : RegIndex) (n : Nibble) (s : State), n = 0 ∨ s.i.toNat + n.toNat ≤ 0x1000 →
    DecodesTo (packXYN 0xD x y n) (.draw x y n) ∧ ∃ t, exec (.draw x y n) s = .next t ∧ t.pc = s.pc + 2 ∧
      (∀ r c, (Covers s ((s.reg x).toNat % 64) ((s.reg y).toNat % 32) n.toNat r c → t.pixel r c = !s.pixel r c) ∧
        (¬ Covers s ((s.reg x).toNat % 64) ((s.reg y).toNat % 32) n.toNat r c → t.pixel r c = s.pixel r c)) ∧
      (t.reg 0xF = 1 ∨ t.reg 0xF = 0) ∧
      (t.reg 0xF = 1 ↔ ∃ r c, Covers s ((s.reg x).toNat % 64) ((s.reg y).toNat % 32) n.toNat r c ∧ s.pixel r c = true) ∧
      (∀ z, z ≠ 0xF → t.reg z = s.reg z) ∧ t.i = s.i ∧ t.draws = s.draws ∧ SameTimers s t ∧ SameStack s t ∧
      SameMemory s t ∧ SameKeys s t ∧ SameControl s t

/-- R202, point 1, as R201 gives it: drawing the same sprite twice at the same place restores every pixel; the second draw reports a
collision exactly when the sprite covers a pixel that was dark before the first; and where every covered pixel was dark (a clear
display among them) R202's own words hold: the first draw gives VF = 0, and the second VF = 1 exactly when the sprite has a set,
unclipped bit. The spec derives R202 from R201; its wording leaves out that condition on the display (log 12). -/
def Obligations.DrawingTwiceRestoresTheDisplay : Prop :=
  ∀ (x y : RegIndex) (n : Nibble) (s t u : State), n = 0 ∨ s.i.toNat + n.toNat ≤ 0x1000 →
    exec (.draw x y n) s = .next t → t.reg x = s.reg x → t.reg y = s.reg y → exec (.draw x y n) t = .next u →
    (∀ r c, u.pixel r c = s.pixel r c) ∧
    (u.reg 0xF = 1 ↔ ∃ r c, Covers s ((s.reg x).toNat % 64) ((s.reg y).toNat % 32) n.toNat r c ∧ s.pixel r c = false) ∧
    ((∀ r c, Covers s ((s.reg x).toNat % 64) ((s.reg y).toNat % 32) n.toNat r c → s.pixel r c = false) →
      t.reg 0xF = 0 ∧
      (u.reg 0xF = 1 ↔ ∃ r c, Covers s ((s.reg x).toNat % 64) ((s.reg y).toNat % 32) n.toNat r c))

/-- R202, point 1, second sentence taken word for word: after two draws VF = 1 exactly when the sprite has a set, unclipped bit,
whatever was lit before. Expected to FAIL: where every pixel under the sprite was lit before the first draw, the second only turns
pixels on, so R201, and R202's own point 3, give VF = 0 (log 12). -/
def Obligations.SecondDrawAlwaysReportsACollision : Prop :=
  ∀ (x y : RegIndex) (n : Nibble) (s t u : State), n = 0 ∨ s.i.toNat + n.toNat ≤ 0x1000 →
    exec (.draw x y n) s = .next t → t.reg x = s.reg x → t.reg y = s.reg y → exec (.draw x y n) t = .next u →
    (u.reg 0xF = 1 ↔ ∃ r c, Covers s ((s.reg x).toNat % 64) ((s.reg y).toNat % 32) n.toNat r c)

/-! ### Font, BCD, bulk transfer -/

/-- R240 LoadSprite: the glyph of the low nibble, with no wrap since FONT_BASE is below 0x200. The base is the spec's decision D7. -/
def Obligations.LoadSpriteFindsTheGlyph : Prop :=
  ∀ (x : RegIndex) (s : State), DecodesTo (packXKK 0xF x 0x29) (.loadSprite x) ∧
    ∃ t w, exec (.loadSprite x) s = .next t ∧ WritesIndex s t w ∧
    w.toNat = s.params.fontBase.toNat + 5 * ((s.reg x).toNat % 16)

/-- R76, with R201, R242 to R244: a range that leaves the image raises AddressOutOfRange with the lowest bad address before anything
is read or written, and a range within it does not fault. The address arithmetic and the early check are the spec's decisions D9, D11. -/
def Obligations.OutOfRangeAccessFaultsFirst : Prop :=
  ∀ (i : Instr) (len : Nat) (s : State),
    ((∃ x y n, i = .draw x y n ∧ len = n.toNat) ∨ (∃ x, i = .storeBcd x ∧ len = 3) ∨
      (∃ x, (i = .storeRegisters x ∨ i = .loadRegisters x) ∧ len = x.toNat + 1)) →
    (0 < len ∧ 0x1000 < s.i.toNat + len → exec i s = .next (s.halt (.addressOutOfRange (max s.i.toNat 0x1000)))) ∧
    (len = 0 ∨ s.i.toNat + len ≤ 0x1000 → ∃ t, exec i s = .next t ∧ t.status = s.status ∧ t.pc = s.pc + 2)

/-- R242 StoreBCD: three decimal digits at I, I+1, I+2, which make up the value again; every other byte and everything else stays.
The digit order is the spec's supplied knowledge (GK7). -/
def Obligations.StoreBcdWritesTheDigits : Prop :=
  ∀ (x : RegIndex) (s : State), s.i.toNat + 3 ≤ 0x1000 →
    DecodesTo (packXKK 0xF x 0x33) (.storeBcd x) ∧ ∃ t, exec (.storeBcd x) s = .next t ∧ t.pc = s.pc + 2 ∧
    (t.readByte s.i.toNat).toNat = (s.reg x).toNat / 100 ∧
    (t.readByte (s.i.toNat + 1)).toNat = (s.reg x).toNat / 10 % 10 ∧
    (t.readByte (s.i.toNat + 2)).toNat = (s.reg x).toNat % 10 ∧
    (t.readByte s.i.toNat).toNat * 100 + (t.readByte (s.i.toNat + 1)).toNat * 10 + (t.readByte (s.i.toNat + 2)).toNat =
      (s.reg x).toNat ∧
    (∀ a, a < s.i.toNat ∨ s.i.toNat + 3 ≤ a → t.readByte a = s.readByte a) ∧
    SameRegs s t ∧ t.i = s.i ∧ t.draws = s.draws ∧ SameTimers s t ∧ SameStack s t ∧ SameDisplay s t ∧ SameKeys s t ∧
    SameControl s t

/-- I after a bulk transfer of registers `0 .. x` (R243, R244). -/
def IndexAfterTransfer (s : State) (x : RegIndex) : Word :=
  if s.params.loadStoreIncrementsI then BitVec.ofNat 16 (s.i.toNat + x.toNat + 1) else s.i

/-- R243 StoreRegisters: `V[0] .. V[x]` at `I .. I + x`; every other byte and everything else stays. Whether I moves on is the spec's
decision D15. -/
def Obligations.StoreRegistersWritesTheRun : Prop :=
  ∀ (x : RegIndex) (s : State), s.i.toNat + x.toNat < 0x1000 →
    DecodesTo (packXKK 0xF x 0x55) (.storeRegisters x) ∧ ∃ t, exec (.storeRegisters x) s = .next t ∧
    t.pc = s.pc + 2 ∧ t.i = IndexAfterTransfer s x ∧
    (∀ y, y ≤ x → t.readByte (s.i.toNat + y.toNat) = s.reg y) ∧
    (∀ a, a < s.i.toNat ∨ s.i.toNat + x.toNat < a → t.readByte a = s.readByte a) ∧
    SameRegs s t ∧ t.draws = s.draws ∧ SameTimers s t ∧ SameStack s t ∧ SameDisplay s t ∧ SameKeys s t ∧ SameControl s t

/-- R244 LoadRegisters: `V[0] .. V[x]` from `I .. I + x`, the registers above x and everything else unchanged. Whether I moves on is
the spec's decision D15. -/
def Obligations.LoadRegistersReadsTheRun : Prop :=
  ∀ (x : RegIndex) (s : State), s.i.toNat + x.toNat < 0x1000 →
    DecodesTo (packXKK 0xF x 0x65) (.loadRegisters x) ∧ ∃ t, exec (.loadRegisters x) s = .next t ∧
    t.pc = s.pc + 2 ∧ t.i = IndexAfterTransfer s x ∧
    (∀ y, t.reg y = if y ≤ x then s.readByte (s.i.toNat + y.toNat) else s.reg y) ∧ t.draws = s.draws ∧ SameRest s t

/-- R83, R311: a stored byte is seen by the very next fetch that reads it: after StoreRegisters, the word at `I + k` is made of `V[k]` and
`V[k + 1]`. The spec derives it from R80. -/
def Obligations.FetchSeesTheStore : Prop :=
  ∀ (x : RegIndex) (s t : State), s.i.toNat + x.toNat < 0x1000 → exec (.storeRegisters x) s = .next t →
    ∀ y z : RegIndex, z.toNat = y.toNat + 1 → z ≤ x → ∀ u : State, u.mem = t.mem → u.params = t.params →
      u.pc.toNat = s.i.toNat + y.toNat → u.fetch = .ok (wordOfBytes (s.reg y) (s.reg z))

/-- R243 then R244 with I back at the first byte: the registers `0 .. x` read back what was stored. -/
def Obligations.StoreThenLoadRegistersRoundTrips : Prop :=
  ∀ (x : RegIndex) (s t u : State), s.i.toNat + x.toNat < 0x1000 → exec (.storeRegisters x) s = .next t →
    u.mem = t.mem → u.params = t.params → u.i = s.i →
    ∃ v, exec (.loadRegisters x) u = .next v ∧ (∀ y, y ≤ x → v.reg y = s.reg y) ∧ ∀ y, x < y → v.reg y = u.reg y

/-! ### The end of a run -/

/-- R316, R140: from a good end, every further Cycle changes nothing but key_prev. The end of a run is the spec's decision D22. -/
def Obligations.AGoodEndIsAFixedPoint : Prop :=
  ∀ (k : Nat) (s : State), s.EndsWell → s.driver = [] → core.run (k + 1) s = .next { s with keyPrev := s.keys }
end

