-- ==== Sys2Proof/Laws/Decode.lean ====
section
/-! SUPPORT. The opcode map: its rows are disjoint, so a word that matches a row decodes by that row (30_encoding.md R110); and the
fields of a packed word. -/

namespace Sys2Proof

/-- No word matches both rows: they differ on a bit both fix. -/
def Row.disjoint (r q : Row) : Bool := decide ((r.value ^^^ q.value) &&& (r.mask &&& q.mask) ≠ 0)

theorem Row.not_both (r q : Row) (h : Row.disjoint r q = true) (w : Word) (hr : rowMatches w r = true) :
    rowMatches w q = false := by
  simp only [Row.disjoint, decide_eq_true_eq] at h
  simp only [rowMatches, beq_iff_eq] at hr
  simp only [rowMatches, beq_eq_false_iff_ne]
  intro hq
  apply h
  rw [← hr, ← hq]
  ext i hi
  simp only [BitVec.getElem_and, BitVec.getElem_xor]
  cases w[i] <;> cases r.mask[i] <;> cases q.mask[i] <;> simp

/-- The 34 patterns are disjoint (R110). -/
theorem opcodeTable_disjoint : opcodeTable.Pairwise (fun r q => Row.disjoint r q = true) := by decide

theorem find_of_pairwise_disjoint (l : List Row) (h : l.Pairwise (fun r q => Row.disjoint r q = true)) (w : Word) (r : Row)
    (hr : r ∈ l) (hw : rowMatches w r = true) : l.find? (rowMatches w) = some r := by
  induction l with
  | nil => cases hr
  | cons q l ih =>
    rw [List.pairwise_cons] at h
    rcases List.mem_cons.mp hr with e | hr
    · subst e; simp [hw]
    · have : rowMatches w q = false := by
        by_contra hq
        rw [Bool.not_eq_false] at hq
        exact absurd hw (by rw [Row.not_both q r (h.1 r hr) w hq]; simp)
      rw [List.find?_cons_of_neg (by simp [this])]
      exact ih h.2 hr

/-- A word that matches a row decodes by that row, whatever SYS_0NNN is (R110, R114). -/
theorem decode_of_row (sys : Config.Sys0nnn) (w : Word) (r : Row) (hr : r ∈ opcodeTable) (hw : rowMatches w r = true) :
    decode sys w = .instr (r.build w) := by
  unfold decode
  rw [find_of_pairwise_disjoint opcodeTable opcodeTable_disjoint w r hr hw]

/-- A word that decodes to an instruction matches a row, and the row builds the instruction. -/
theorem row_of_decode (sys : Config.Sys0nnn) (w : Word) (i : Instr) (h : decode sys w = .instr i) :
    ∃ r ∈ opcodeTable, rowMatches w r = true ∧ r.build w = i := by
  unfold decode at h
  split at h
  · next r hr =>
    exact ⟨r, List.mem_of_find?_eq_some hr, List.find?_some hr, by simpa using h⟩
  · split at h <;> cases h

/-! ### Fields of a packed word -/

theorem packXYN_toNat (op : BitVec 4) (x y : RegIndex) (n : Nibble) :
    (packXYN op x y n).toNat = ((op.toNat * 16 + x.toNat) * 16 + y.toNat) * 16 + n.toNat := by
  have := n.isLt; have := y.isLt; have := x.isLt
  simp only [packXYN, BitVec.toNat_append]
  rw [← Nat.shiftLeft_add_eq_or_of_lt n.isLt, ← Nat.shiftLeft_add_eq_or_of_lt y.isLt, ← Nat.shiftLeft_add_eq_or_of_lt x.isLt]
  simp only [Nat.shiftLeft_eq]

theorem packXKK_toNat (op : BitVec 4) (x : RegIndex) (kk : Byte) :
    (packXKK op x kk).toNat = (op.toNat * 16 + x.toNat) * 256 + kk.toNat := by
  simp only [packXKK, BitVec.toNat_append]
  rw [← Nat.shiftLeft_add_eq_or_of_lt kk.isLt, ← Nat.shiftLeft_add_eq_or_of_lt x.isLt]
  simp only [Nat.shiftLeft_eq]

theorem packNNN_toNat (op : BitVec 4) (nnn : Addr12) : (packNNN op nnn).toNat = op.toNat * 4096 + nnn.toNat := by
  simp only [packNNN, BitVec.toNat_append]
  rw [← Nat.shiftLeft_add_eq_or_of_lt nnn.isLt]
  simp only [Nat.shiftLeft_eq]

theorem fieldX_toNat (w : Word) : (fieldX w).toNat = w.toNat / 256 % 16 := by
  simp [fieldX, BitVec.extractLsb'_toNat, Nat.shiftRight_eq_div_pow]

theorem fieldY_toNat (w : Word) : (fieldY w).toNat = w.toNat / 16 % 16 := by
  simp [fieldY, BitVec.extractLsb'_toNat, Nat.shiftRight_eq_div_pow]

theorem fieldN_toNat (w : Word) : (fieldN w).toNat = w.toNat % 16 := by
  simp [fieldN, BitVec.extractLsb'_toNat]

theorem fieldKK_toNat (w : Word) : (fieldKK w).toNat = w.toNat % 256 := by
  simp [fieldKK, BitVec.extractLsb'_toNat]

theorem fieldNNN_toNat (w : Word) : (fieldNNN w).toNat = w.toNat % 4096 := by
  simp [fieldNNN, BitVec.extractLsb'_toNat]

theorem fieldOp_toNat (w : Word) : (fieldOp w).toNat = w.toNat / 4096 := by
  have := w.isLt
  simp [fieldOp, BitVec.extractLsb'_toNat, Nat.shiftRight_eq_div_pow]; omega

@[simp] theorem fieldX_packXYN (op : BitVec 4) (x y : RegIndex) (n : Nibble) : fieldX (packXYN op x y n) = x := by
  apply BitVec.eq_of_toNat_eq
  have := n.isLt; have := y.isLt; have := x.isLt
  rw [fieldX_toNat, packXYN_toNat]; omega

@[simp] theorem fieldY_packXYN (op : BitVec 4) (x y : RegIndex) (n : Nibble) : fieldY (packXYN op x y n) = y := by
  apply BitVec.eq_of_toNat_eq
  have := n.isLt; have := y.isLt
  rw [fieldY_toNat, packXYN_toNat]; omega

@[simp] theorem fieldN_packXYN (op : BitVec 4) (x y : RegIndex) (n : Nibble) : fieldN (packXYN op x y n) = n := by
  apply BitVec.eq_of_toNat_eq
  have := n.isLt
  rw [fieldN_toNat, packXYN_toNat]; omega

@[simp] theorem fieldX_packXKK (op : BitVec 4) (x : RegIndex) (kk : Byte) : fieldX (packXKK op x kk) = x := by
  apply BitVec.eq_of_toNat_eq
  have := x.isLt; have := kk.isLt
  rw [fieldX_toNat, packXKK_toNat]; omega

@[simp] theorem fieldKK_packXKK (op : BitVec 4) (x : RegIndex) (kk : Byte) : fieldKK (packXKK op x kk) = kk := by
  apply BitVec.eq_of_toNat_eq
  have := kk.isLt
  rw [fieldKK_toNat, packXKK_toNat]; omega

@[simp] theorem fieldNNN_packNNN (op : BitVec 4) (nnn : Addr12) : fieldNNN (packNNN op nnn) = nnn := by
  apply BitVec.eq_of_toNat_eq
  have := nnn.isLt
  rw [fieldNNN_toNat, packNNN_toNat]; omega

/-! ### Masks over a packed word -/

theorem and_nibbleOnes (a : BitVec 4) : a &&& 0xF = a := by revert a; decide

theorem and_byteOnes (a : BitVec 8) : a &&& 0xFF = a := by revert a; decide

theorem packNNN_and (op m : BitVec 4) (nnn mn : Addr12) :
    packNNN op nnn &&& packNNN m mn = packNNN (op &&& m) (nnn &&& mn) := BitVec.and_append

theorem packXKK_and (op m : BitVec 4) (x mx : RegIndex) (kk mk : Byte) :
    packXKK op x kk &&& packXKK m mx mk = packXKK (op &&& m) (x &&& mx) (kk &&& mk) := by
  unfold packXKK
  rw [← BitVec.and_append]
  exact BitVec.and_append

theorem packXYN_and (op m : BitVec 4) (x y mx my : RegIndex) (n mn : Nibble) :
    packXYN op x y n &&& packXYN m mx my mn = packXYN (op &&& m) (x &&& mx) (y &&& my) (n &&& mn) := by
  unfold packXYN
  rw [← BitVec.and_append, ← BitVec.and_append]
  exact BitVec.and_append

/-- Under the mask 0xF00F a packed word keeps `op` and `n` (R110). -/
theorem packXYN_mask (op : BitVec 4) (x y : RegIndex) (n : Nibble) :
    packXYN op x y n &&& 0xF00F = packXYN op 0 0 n := by
  rw [show (0xF00F : Word) = packXYN 0xF 0 0 0xF by decide, packXYN_and]
  simp only [and_nibbleOnes]; simp

/-- Under the mask 0xF000 a packed word keeps `op`. -/
theorem packXYN_mask_op (op : BitVec 4) (x y : RegIndex) (n : Nibble) :
    packXYN op x y n &&& 0xF000 = packXYN op 0 0 0 := by
  rw [show (0xF000 : Word) = packXYN 0xF 0 0 0 by decide, packXYN_and]
  simp only [and_nibbleOnes]; simp

/-- Under the mask 0xF0FF a packed word keeps `op` and `kk`. -/
theorem packXKK_mask (op : BitVec 4) (x : RegIndex) (kk : Byte) :
    packXKK op x kk &&& 0xF0FF = packXKK op 0 kk := by
  rw [show (0xF0FF : Word) = packXKK 0xF 0 0xFF by decide, packXKK_and]
  simp only [and_nibbleOnes, and_byteOnes]; simp

/-- Under the mask 0xF000 a packed word keeps `op`. -/
theorem packXKK_mask_op (op : BitVec 4) (x : RegIndex) (kk : Byte) :
    packXKK op x kk &&& 0xF000 = packXKK op 0 0 := by
  rw [show (0xF000 : Word) = packXKK 0xF 0 0 by decide, packXKK_and]
  simp only [and_nibbleOnes]; simp

/-- Under the mask 0xF000 a packed word keeps `op`. -/
theorem packNNN_mask (op : BitVec 4) (nnn : Addr12) : packNNN op nnn &&& 0xF000 = packNNN op 0 := by
  rw [show (0xF000 : Word) = packNNN 0xF 0 by decide, packNNN_and]
  simp only [and_nibbleOnes]; simp

end Sys2Proof
end

