-- ==== Sys2Proof/Laws/State.lean ====
section
/-! SUPPORT. What each named update of the state does to each field and to each accessor: one lemma each, true by rfl, so that
no later proof unfolds an update. -/

namespace Sys2Proof.Machine

/-! ### `State.setReg` -/

@[simp] theorem State.setReg_v (s : State) (x : RegIndex) (b : Byte) : (s.setReg x b).v = s.v.set x.toNat b x.isLt := rfl
@[simp] theorem State.setReg_i (s : State) (x : RegIndex) (b : Byte) : (s.setReg x b).i = s.i := rfl
@[simp] theorem State.setReg_dt (s : State) (x : RegIndex) (b : Byte) : (s.setReg x b).dt = s.dt := rfl
@[simp] theorem State.setReg_st (s : State) (x : RegIndex) (b : Byte) : (s.setReg x b).st = s.st := rfl
@[simp] theorem State.setReg_pc (s : State) (x : RegIndex) (b : Byte) : (s.setReg x b).pc = s.pc := rfl
@[simp] theorem State.setReg_sp (s : State) (x : RegIndex) (b : Byte) : (s.setReg x b).sp = s.sp := rfl
@[simp] theorem State.setReg_stack (s : State) (x : RegIndex) (b : Byte) : (s.setReg x b).stack = s.stack := rfl
@[simp] theorem State.setReg_mem (s : State) (x : RegIndex) (b : Byte) : (s.setReg x b).mem = s.mem := rfl
@[simp] theorem State.setReg_disp (s : State) (x : RegIndex) (b : Byte) : (s.setReg x b).disp = s.disp := rfl
@[simp] theorem State.setReg_keys (s : State) (x : RegIndex) (b : Byte) : (s.setReg x b).keys = s.keys := rfl
@[simp] theorem State.setReg_keyPrev (s : State) (x : RegIndex) (b : Byte) : (s.setReg x b).keyPrev = s.keyPrev := rfl
@[simp] theorem State.setReg_status (s : State) (x : RegIndex) (b : Byte) : (s.setReg x b).status = s.status := rfl
@[simp] theorem State.setReg_params (s : State) (x : RegIndex) (b : Byte) : (s.setReg x b).params = s.params := rfl
@[simp] theorem State.setReg_draws (s : State) (x : RegIndex) (b : Byte) : (s.setReg x b).draws = s.draws := rfl
@[simp] theorem State.setReg_driver (s : State) (x : RegIndex) (b : Byte) : (s.setReg x b).driver = s.driver := rfl
@[simp] theorem State.setReg_stackAt (s : State) (x : RegIndex) (b : Byte) (j : Fin 16) : (s.setReg x b).stackAt j = s.stackAt j := rfl
@[simp] theorem State.setReg_readByte (s : State) (x : RegIndex) (b : Byte) (a' : Nat) : (s.setReg x b).readByte a' = s.readByte a' := rfl
@[simp] theorem State.setReg_pixel (s : State) (x : RegIndex) (b : Byte) (r : Fin 32) (col : Fin 64) : (s.setReg x b).pixel r col = s.pixel r col := rfl
@[simp] theorem State.setReg_key (s : State) (x : RegIndex) (b : Byte) (k' : KeyIndex) : (s.setReg x b).key k' = s.key k' := rfl
@[simp] theorem State.setReg_prevKey (s : State) (x : RegIndex) (b : Byte) (k' : KeyIndex) : (s.setReg x b).prevKey k' = s.prevKey k' := rfl

/-! ### `State.setFlag` -/

@[simp] theorem State.setFlag_v (s : State) (f : Byte) : (s.setFlag f).v = s.v.set flagReg.toNat f flagReg.isLt := rfl
@[simp] theorem State.setFlag_i (s : State) (f : Byte) : (s.setFlag f).i = s.i := rfl
@[simp] theorem State.setFlag_dt (s : State) (f : Byte) : (s.setFlag f).dt = s.dt := rfl
@[simp] theorem State.setFlag_st (s : State) (f : Byte) : (s.setFlag f).st = s.st := rfl
@[simp] theorem State.setFlag_pc (s : State) (f : Byte) : (s.setFlag f).pc = s.pc := rfl
@[simp] theorem State.setFlag_sp (s : State) (f : Byte) : (s.setFlag f).sp = s.sp := rfl
@[simp] theorem State.setFlag_stack (s : State) (f : Byte) : (s.setFlag f).stack = s.stack := rfl
@[simp] theorem State.setFlag_mem (s : State) (f : Byte) : (s.setFlag f).mem = s.mem := rfl
@[simp] theorem State.setFlag_disp (s : State) (f : Byte) : (s.setFlag f).disp = s.disp := rfl
@[simp] theorem State.setFlag_keys (s : State) (f : Byte) : (s.setFlag f).keys = s.keys := rfl
@[simp] theorem State.setFlag_keyPrev (s : State) (f : Byte) : (s.setFlag f).keyPrev = s.keyPrev := rfl
@[simp] theorem State.setFlag_status (s : State) (f : Byte) : (s.setFlag f).status = s.status := rfl
@[simp] theorem State.setFlag_params (s : State) (f : Byte) : (s.setFlag f).params = s.params := rfl
@[simp] theorem State.setFlag_draws (s : State) (f : Byte) : (s.setFlag f).draws = s.draws := rfl
@[simp] theorem State.setFlag_driver (s : State) (f : Byte) : (s.setFlag f).driver = s.driver := rfl
@[simp] theorem State.setFlag_stackAt (s : State) (f : Byte) (j : Fin 16) : (s.setFlag f).stackAt j = s.stackAt j := rfl
@[simp] theorem State.setFlag_readByte (s : State) (f : Byte) (a' : Nat) : (s.setFlag f).readByte a' = s.readByte a' := rfl
@[simp] theorem State.setFlag_pixel (s : State) (f : Byte) (r : Fin 32) (col : Fin 64) : (s.setFlag f).pixel r col = s.pixel r col := rfl
@[simp] theorem State.setFlag_key (s : State) (f : Byte) (k' : KeyIndex) : (s.setFlag f).key k' = s.key k' := rfl
@[simp] theorem State.setFlag_prevKey (s : State) (f : Byte) (k' : KeyIndex) : (s.setFlag f).prevKey k' = s.prevKey k' := rfl

/-! ### `State.setIndex` -/

@[simp] theorem State.setIndex_v (s : State) (w : Word) : (s.setIndex w).v = s.v := rfl
@[simp] theorem State.setIndex_i (s : State) (w : Word) : (s.setIndex w).i = w := rfl
@[simp] theorem State.setIndex_dt (s : State) (w : Word) : (s.setIndex w).dt = s.dt := rfl
@[simp] theorem State.setIndex_st (s : State) (w : Word) : (s.setIndex w).st = s.st := rfl
@[simp] theorem State.setIndex_pc (s : State) (w : Word) : (s.setIndex w).pc = s.pc := rfl
@[simp] theorem State.setIndex_sp (s : State) (w : Word) : (s.setIndex w).sp = s.sp := rfl
@[simp] theorem State.setIndex_stack (s : State) (w : Word) : (s.setIndex w).stack = s.stack := rfl
@[simp] theorem State.setIndex_mem (s : State) (w : Word) : (s.setIndex w).mem = s.mem := rfl
@[simp] theorem State.setIndex_disp (s : State) (w : Word) : (s.setIndex w).disp = s.disp := rfl
@[simp] theorem State.setIndex_keys (s : State) (w : Word) : (s.setIndex w).keys = s.keys := rfl
@[simp] theorem State.setIndex_keyPrev (s : State) (w : Word) : (s.setIndex w).keyPrev = s.keyPrev := rfl
@[simp] theorem State.setIndex_status (s : State) (w : Word) : (s.setIndex w).status = s.status := rfl
@[simp] theorem State.setIndex_params (s : State) (w : Word) : (s.setIndex w).params = s.params := rfl
@[simp] theorem State.setIndex_draws (s : State) (w : Word) : (s.setIndex w).draws = s.draws := rfl
@[simp] theorem State.setIndex_driver (s : State) (w : Word) : (s.setIndex w).driver = s.driver := rfl
@[simp] theorem State.setIndex_reg (s : State) (w : Word) (y : RegIndex) : (s.setIndex w).reg y = s.reg y := rfl
@[simp] theorem State.setIndex_stackAt (s : State) (w : Word) (j : Fin 16) : (s.setIndex w).stackAt j = s.stackAt j := rfl
@[simp] theorem State.setIndex_readByte (s : State) (w : Word) (a' : Nat) : (s.setIndex w).readByte a' = s.readByte a' := rfl
@[simp] theorem State.setIndex_pixel (s : State) (w : Word) (r : Fin 32) (col : Fin 64) : (s.setIndex w).pixel r col = s.pixel r col := rfl
@[simp] theorem State.setIndex_key (s : State) (w : Word) (k' : KeyIndex) : (s.setIndex w).key k' = s.key k' := rfl
@[simp] theorem State.setIndex_prevKey (s : State) (w : Word) (k' : KeyIndex) : (s.setIndex w).prevKey k' = s.prevKey k' := rfl

/-! ### `State.setDelay` -/

@[simp] theorem State.setDelay_v (s : State) (b : Byte) : (s.setDelay b).v = s.v := rfl
@[simp] theorem State.setDelay_i (s : State) (b : Byte) : (s.setDelay b).i = s.i := rfl
@[simp] theorem State.setDelay_dt (s : State) (b : Byte) : (s.setDelay b).dt = b := rfl
@[simp] theorem State.setDelay_st (s : State) (b : Byte) : (s.setDelay b).st = s.st := rfl
@[simp] theorem State.setDelay_pc (s : State) (b : Byte) : (s.setDelay b).pc = s.pc := rfl
@[simp] theorem State.setDelay_sp (s : State) (b : Byte) : (s.setDelay b).sp = s.sp := rfl
@[simp] theorem State.setDelay_stack (s : State) (b : Byte) : (s.setDelay b).stack = s.stack := rfl
@[simp] theorem State.setDelay_mem (s : State) (b : Byte) : (s.setDelay b).mem = s.mem := rfl
@[simp] theorem State.setDelay_disp (s : State) (b : Byte) : (s.setDelay b).disp = s.disp := rfl
@[simp] theorem State.setDelay_keys (s : State) (b : Byte) : (s.setDelay b).keys = s.keys := rfl
@[simp] theorem State.setDelay_keyPrev (s : State) (b : Byte) : (s.setDelay b).keyPrev = s.keyPrev := rfl
@[simp] theorem State.setDelay_status (s : State) (b : Byte) : (s.setDelay b).status = s.status := rfl
@[simp] theorem State.setDelay_params (s : State) (b : Byte) : (s.setDelay b).params = s.params := rfl
@[simp] theorem State.setDelay_draws (s : State) (b : Byte) : (s.setDelay b).draws = s.draws := rfl
@[simp] theorem State.setDelay_driver (s : State) (b : Byte) : (s.setDelay b).driver = s.driver := rfl
@[simp] theorem State.setDelay_reg (s : State) (b : Byte) (y : RegIndex) : (s.setDelay b).reg y = s.reg y := rfl
@[simp] theorem State.setDelay_stackAt (s : State) (b : Byte) (j : Fin 16) : (s.setDelay b).stackAt j = s.stackAt j := rfl
@[simp] theorem State.setDelay_readByte (s : State) (b : Byte) (a' : Nat) : (s.setDelay b).readByte a' = s.readByte a' := rfl
@[simp] theorem State.setDelay_pixel (s : State) (b : Byte) (r : Fin 32) (col : Fin 64) : (s.setDelay b).pixel r col = s.pixel r col := rfl
@[simp] theorem State.setDelay_key (s : State) (b : Byte) (k' : KeyIndex) : (s.setDelay b).key k' = s.key k' := rfl
@[simp] theorem State.setDelay_prevKey (s : State) (b : Byte) (k' : KeyIndex) : (s.setDelay b).prevKey k' = s.prevKey k' := rfl

/-! ### `State.setSound` -/

@[simp] theorem State.setSound_v (s : State) (b : Byte) : (s.setSound b).v = s.v := rfl
@[simp] theorem State.setSound_i (s : State) (b : Byte) : (s.setSound b).i = s.i := rfl
@[simp] theorem State.setSound_dt (s : State) (b : Byte) : (s.setSound b).dt = s.dt := rfl
@[simp] theorem State.setSound_st (s : State) (b : Byte) : (s.setSound b).st = b := rfl
@[simp] theorem State.setSound_pc (s : State) (b : Byte) : (s.setSound b).pc = s.pc := rfl
@[simp] theorem State.setSound_sp (s : State) (b : Byte) : (s.setSound b).sp = s.sp := rfl
@[simp] theorem State.setSound_stack (s : State) (b : Byte) : (s.setSound b).stack = s.stack := rfl
@[simp] theorem State.setSound_mem (s : State) (b : Byte) : (s.setSound b).mem = s.mem := rfl
@[simp] theorem State.setSound_disp (s : State) (b : Byte) : (s.setSound b).disp = s.disp := rfl
@[simp] theorem State.setSound_keys (s : State) (b : Byte) : (s.setSound b).keys = s.keys := rfl
@[simp] theorem State.setSound_keyPrev (s : State) (b : Byte) : (s.setSound b).keyPrev = s.keyPrev := rfl
@[simp] theorem State.setSound_status (s : State) (b : Byte) : (s.setSound b).status = s.status := rfl
@[simp] theorem State.setSound_params (s : State) (b : Byte) : (s.setSound b).params = s.params := rfl
@[simp] theorem State.setSound_draws (s : State) (b : Byte) : (s.setSound b).draws = s.draws := rfl
@[simp] theorem State.setSound_driver (s : State) (b : Byte) : (s.setSound b).driver = s.driver := rfl
@[simp] theorem State.setSound_reg (s : State) (b : Byte) (y : RegIndex) : (s.setSound b).reg y = s.reg y := rfl
@[simp] theorem State.setSound_stackAt (s : State) (b : Byte) (j : Fin 16) : (s.setSound b).stackAt j = s.stackAt j := rfl
@[simp] theorem State.setSound_readByte (s : State) (b : Byte) (a' : Nat) : (s.setSound b).readByte a' = s.readByte a' := rfl
@[simp] theorem State.setSound_pixel (s : State) (b : Byte) (r : Fin 32) (col : Fin 64) : (s.setSound b).pixel r col = s.pixel r col := rfl
@[simp] theorem State.setSound_key (s : State) (b : Byte) (k' : KeyIndex) : (s.setSound b).key k' = s.key k' := rfl
@[simp] theorem State.setSound_prevKey (s : State) (b : Byte) (k' : KeyIndex) : (s.setSound b).prevKey k' = s.prevKey k' := rfl

/-! ### `State.setPc` -/

@[simp] theorem State.setPc_v (s : State) (w : Word) : (s.setPc w).v = s.v := rfl
@[simp] theorem State.setPc_i (s : State) (w : Word) : (s.setPc w).i = s.i := rfl
@[simp] theorem State.setPc_dt (s : State) (w : Word) : (s.setPc w).dt = s.dt := rfl
@[simp] theorem State.setPc_st (s : State) (w : Word) : (s.setPc w).st = s.st := rfl
@[simp] theorem State.setPc_pc (s : State) (w : Word) : (s.setPc w).pc = w := rfl
@[simp] theorem State.setPc_sp (s : State) (w : Word) : (s.setPc w).sp = s.sp := rfl
@[simp] theorem State.setPc_stack (s : State) (w : Word) : (s.setPc w).stack = s.stack := rfl
@[simp] theorem State.setPc_mem (s : State) (w : Word) : (s.setPc w).mem = s.mem := rfl
@[simp] theorem State.setPc_disp (s : State) (w : Word) : (s.setPc w).disp = s.disp := rfl
@[simp] theorem State.setPc_keys (s : State) (w : Word) : (s.setPc w).keys = s.keys := rfl
@[simp] theorem State.setPc_keyPrev (s : State) (w : Word) : (s.setPc w).keyPrev = s.keyPrev := rfl
@[simp] theorem State.setPc_status (s : State) (w : Word) : (s.setPc w).status = s.status := rfl
@[simp] theorem State.setPc_params (s : State) (w : Word) : (s.setPc w).params = s.params := rfl
@[simp] theorem State.setPc_draws (s : State) (w : Word) : (s.setPc w).draws = s.draws := rfl
@[simp] theorem State.setPc_driver (s : State) (w : Word) : (s.setPc w).driver = s.driver := rfl
@[simp] theorem State.setPc_reg (s : State) (w : Word) (y : RegIndex) : (s.setPc w).reg y = s.reg y := rfl
@[simp] theorem State.setPc_stackAt (s : State) (w : Word) (j : Fin 16) : (s.setPc w).stackAt j = s.stackAt j := rfl
@[simp] theorem State.setPc_readByte (s : State) (w : Word) (a' : Nat) : (s.setPc w).readByte a' = s.readByte a' := rfl
@[simp] theorem State.setPc_pixel (s : State) (w : Word) (r : Fin 32) (col : Fin 64) : (s.setPc w).pixel r col = s.pixel r col := rfl
@[simp] theorem State.setPc_key (s : State) (w : Word) (k' : KeyIndex) : (s.setPc w).key k' = s.key k' := rfl
@[simp] theorem State.setPc_prevKey (s : State) (w : Word) (k' : KeyIndex) : (s.setPc w).prevKey k' = s.prevKey k' := rfl

/-! ### `State.advance` -/

@[simp] theorem State.advance_v (s : State) : (s.advance).v = s.v := rfl
@[simp] theorem State.advance_i (s : State) : (s.advance).i = s.i := rfl
@[simp] theorem State.advance_dt (s : State) : (s.advance).dt = s.dt := rfl
@[simp] theorem State.advance_st (s : State) : (s.advance).st = s.st := rfl
@[simp] theorem State.advance_pc (s : State) : (s.advance).pc = s.pc + 2 := rfl
@[simp] theorem State.advance_sp (s : State) : (s.advance).sp = s.sp := rfl
@[simp] theorem State.advance_stack (s : State) : (s.advance).stack = s.stack := rfl
@[simp] theorem State.advance_mem (s : State) : (s.advance).mem = s.mem := rfl
@[simp] theorem State.advance_disp (s : State) : (s.advance).disp = s.disp := rfl
@[simp] theorem State.advance_keys (s : State) : (s.advance).keys = s.keys := rfl
@[simp] theorem State.advance_keyPrev (s : State) : (s.advance).keyPrev = s.keyPrev := rfl
@[simp] theorem State.advance_status (s : State) : (s.advance).status = s.status := rfl
@[simp] theorem State.advance_params (s : State) : (s.advance).params = s.params := rfl
@[simp] theorem State.advance_draws (s : State) : (s.advance).draws = s.draws := rfl
@[simp] theorem State.advance_driver (s : State) : (s.advance).driver = s.driver := rfl
@[simp] theorem State.advance_reg (s : State) (y : RegIndex) : (s.advance).reg y = s.reg y := rfl
@[simp] theorem State.advance_stackAt (s : State) (j : Fin 16) : (s.advance).stackAt j = s.stackAt j := rfl
@[simp] theorem State.advance_readByte (s : State) (a' : Nat) : (s.advance).readByte a' = s.readByte a' := rfl
@[simp] theorem State.advance_pixel (s : State) (r : Fin 32) (col : Fin 64) : (s.advance).pixel r col = s.pixel r col := rfl
@[simp] theorem State.advance_key (s : State) (k' : KeyIndex) : (s.advance).key k' = s.key k' := rfl
@[simp] theorem State.advance_prevKey (s : State) (k' : KeyIndex) : (s.advance).prevKey k' = s.prevKey k' := rfl

/-! ### `State.skipIf` -/

@[simp] theorem State.skipIf_v (s : State) (c : Bool) : (s.skipIf c).v = s.v := rfl
@[simp] theorem State.skipIf_i (s : State) (c : Bool) : (s.skipIf c).i = s.i := rfl
@[simp] theorem State.skipIf_dt (s : State) (c : Bool) : (s.skipIf c).dt = s.dt := rfl
@[simp] theorem State.skipIf_st (s : State) (c : Bool) : (s.skipIf c).st = s.st := rfl
@[simp] theorem State.skipIf_pc (s : State) (c : Bool) : (s.skipIf c).pc = if c then s.pc + 4 else s.pc + 2 := rfl
@[simp] theorem State.skipIf_sp (s : State) (c : Bool) : (s.skipIf c).sp = s.sp := rfl
@[simp] theorem State.skipIf_stack (s : State) (c : Bool) : (s.skipIf c).stack = s.stack := rfl
@[simp] theorem State.skipIf_mem (s : State) (c : Bool) : (s.skipIf c).mem = s.mem := rfl
@[simp] theorem State.skipIf_disp (s : State) (c : Bool) : (s.skipIf c).disp = s.disp := rfl
@[simp] theorem State.skipIf_keys (s : State) (c : Bool) : (s.skipIf c).keys = s.keys := rfl
@[simp] theorem State.skipIf_keyPrev (s : State) (c : Bool) : (s.skipIf c).keyPrev = s.keyPrev := rfl
@[simp] theorem State.skipIf_status (s : State) (c : Bool) : (s.skipIf c).status = s.status := rfl
@[simp] theorem State.skipIf_params (s : State) (c : Bool) : (s.skipIf c).params = s.params := rfl
@[simp] theorem State.skipIf_draws (s : State) (c : Bool) : (s.skipIf c).draws = s.draws := rfl
@[simp] theorem State.skipIf_driver (s : State) (c : Bool) : (s.skipIf c).driver = s.driver := rfl
@[simp] theorem State.skipIf_reg (s : State) (c : Bool) (y : RegIndex) : (s.skipIf c).reg y = s.reg y := rfl
@[simp] theorem State.skipIf_stackAt (s : State) (c : Bool) (j : Fin 16) : (s.skipIf c).stackAt j = s.stackAt j := rfl
@[simp] theorem State.skipIf_readByte (s : State) (c : Bool) (a' : Nat) : (s.skipIf c).readByte a' = s.readByte a' := rfl
@[simp] theorem State.skipIf_pixel (s : State) (c : Bool) (r : Fin 32) (col : Fin 64) : (s.skipIf c).pixel r col = s.pixel r col := rfl
@[simp] theorem State.skipIf_key (s : State) (c : Bool) (k' : KeyIndex) : (s.skipIf c).key k' = s.key k' := rfl
@[simp] theorem State.skipIf_prevKey (s : State) (c : Bool) (k' : KeyIndex) : (s.skipIf c).prevKey k' = s.prevKey k' := rfl

/-! ### `State.push` -/

@[simp] theorem State.push_v (s : State) (a : Word) : (s.push a).v = s.v := rfl
@[simp] theorem State.push_i (s : State) (a : Word) : (s.push a).i = s.i := rfl
@[simp] theorem State.push_dt (s : State) (a : Word) : (s.push a).dt = s.dt := rfl
@[simp] theorem State.push_st (s : State) (a : Word) : (s.push a).st = s.st := rfl
@[simp] theorem State.push_pc (s : State) (a : Word) : (s.push a).pc = s.pc := rfl
@[simp] theorem State.push_sp (s : State) (a : Word) : (s.push a).sp = s.sp + 1 := rfl
@[simp] theorem State.push_stack (s : State) (a : Word) : (s.push a).stack = s.stack.setIfInBounds s.sp.toNat a := rfl
@[simp] theorem State.push_mem (s : State) (a : Word) : (s.push a).mem = s.mem := rfl
@[simp] theorem State.push_disp (s : State) (a : Word) : (s.push a).disp = s.disp := rfl
@[simp] theorem State.push_keys (s : State) (a : Word) : (s.push a).keys = s.keys := rfl
@[simp] theorem State.push_keyPrev (s : State) (a : Word) : (s.push a).keyPrev = s.keyPrev := rfl
@[simp] theorem State.push_status (s : State) (a : Word) : (s.push a).status = s.status := rfl
@[simp] theorem State.push_params (s : State) (a : Word) : (s.push a).params = s.params := rfl
@[simp] theorem State.push_draws (s : State) (a : Word) : (s.push a).draws = s.draws := rfl
@[simp] theorem State.push_driver (s : State) (a : Word) : (s.push a).driver = s.driver := rfl
@[simp] theorem State.push_reg (s : State) (a : Word) (y : RegIndex) : (s.push a).reg y = s.reg y := rfl
@[simp] theorem State.push_readByte (s : State) (a : Word) (a' : Nat) : (s.push a).readByte a' = s.readByte a' := rfl
@[simp] theorem State.push_pixel (s : State) (a : Word) (r : Fin 32) (col : Fin 64) : (s.push a).pixel r col = s.pixel r col := rfl
@[simp] theorem State.push_key (s : State) (a : Word) (k' : KeyIndex) : (s.push a).key k' = s.key k' := rfl
@[simp] theorem State.push_prevKey (s : State) (a : Word) (k' : KeyIndex) : (s.push a).prevKey k' = s.prevKey k' := rfl

/-! ### `State.dropTop` -/

@[simp] theorem State.dropTop_v (s : State) : (s.dropTop).v = s.v := rfl
@[simp] theorem State.dropTop_i (s : State) : (s.dropTop).i = s.i := rfl
@[simp] theorem State.dropTop_dt (s : State) : (s.dropTop).dt = s.dt := rfl
@[simp] theorem State.dropTop_st (s : State) : (s.dropTop).st = s.st := rfl
@[simp] theorem State.dropTop_pc (s : State) : (s.dropTop).pc = s.pc := rfl
@[simp] theorem State.dropTop_sp (s : State) : (s.dropTop).sp = s.sp - 1 := rfl
@[simp] theorem State.dropTop_stack (s : State) : (s.dropTop).stack = s.stack := rfl
@[simp] theorem State.dropTop_mem (s : State) : (s.dropTop).mem = s.mem := rfl
@[simp] theorem State.dropTop_disp (s : State) : (s.dropTop).disp = s.disp := rfl
@[simp] theorem State.dropTop_keys (s : State) : (s.dropTop).keys = s.keys := rfl
@[simp] theorem State.dropTop_keyPrev (s : State) : (s.dropTop).keyPrev = s.keyPrev := rfl
@[simp] theorem State.dropTop_status (s : State) : (s.dropTop).status = s.status := rfl
@[simp] theorem State.dropTop_params (s : State) : (s.dropTop).params = s.params := rfl
@[simp] theorem State.dropTop_draws (s : State) : (s.dropTop).draws = s.draws := rfl
@[simp] theorem State.dropTop_driver (s : State) : (s.dropTop).driver = s.driver := rfl
@[simp] theorem State.dropTop_reg (s : State) (y : RegIndex) : (s.dropTop).reg y = s.reg y := rfl
@[simp] theorem State.dropTop_stackAt (s : State) (j : Fin 16) : (s.dropTop).stackAt j = s.stackAt j := rfl
@[simp] theorem State.dropTop_readByte (s : State) (a' : Nat) : (s.dropTop).readByte a' = s.readByte a' := rfl
@[simp] theorem State.dropTop_pixel (s : State) (r : Fin 32) (col : Fin 64) : (s.dropTop).pixel r col = s.pixel r col := rfl
@[simp] theorem State.dropTop_key (s : State) (k' : KeyIndex) : (s.dropTop).key k' = s.key k' := rfl
@[simp] theorem State.dropTop_prevKey (s : State) (k' : KeyIndex) : (s.dropTop).prevKey k' = s.prevKey k' := rfl

/-! ### `State.storeBytes` -/

@[simp] theorem State.storeBytes_v (s : State) (a : Nat) (bs : List Byte) : (s.storeBytes a bs).v = s.v := rfl
@[simp] theorem State.storeBytes_i (s : State) (a : Nat) (bs : List Byte) : (s.storeBytes a bs).i = s.i := rfl
@[simp] theorem State.storeBytes_dt (s : State) (a : Nat) (bs : List Byte) : (s.storeBytes a bs).dt = s.dt := rfl
@[simp] theorem State.storeBytes_st (s : State) (a : Nat) (bs : List Byte) : (s.storeBytes a bs).st = s.st := rfl
@[simp] theorem State.storeBytes_pc (s : State) (a : Nat) (bs : List Byte) : (s.storeBytes a bs).pc = s.pc := rfl
@[simp] theorem State.storeBytes_sp (s : State) (a : Nat) (bs : List Byte) : (s.storeBytes a bs).sp = s.sp := rfl
@[simp] theorem State.storeBytes_stack (s : State) (a : Nat) (bs : List Byte) : (s.storeBytes a bs).stack = s.stack := rfl
@[simp] theorem State.storeBytes_mem (s : State) (a : Nat) (bs : List Byte) : (s.storeBytes a bs).mem = Memory.writeBytes s.params s.mem a bs := rfl
@[simp] theorem State.storeBytes_disp (s : State) (a : Nat) (bs : List Byte) : (s.storeBytes a bs).disp = s.disp := rfl
@[simp] theorem State.storeBytes_keys (s : State) (a : Nat) (bs : List Byte) : (s.storeBytes a bs).keys = s.keys := rfl
@[simp] theorem State.storeBytes_keyPrev (s : State) (a : Nat) (bs : List Byte) : (s.storeBytes a bs).keyPrev = s.keyPrev := rfl
@[simp] theorem State.storeBytes_status (s : State) (a : Nat) (bs : List Byte) : (s.storeBytes a bs).status = s.status := rfl
@[simp] theorem State.storeBytes_params (s : State) (a : Nat) (bs : List Byte) : (s.storeBytes a bs).params = s.params := rfl
@[simp] theorem State.storeBytes_draws (s : State) (a : Nat) (bs : List Byte) : (s.storeBytes a bs).draws = s.draws := rfl
@[simp] theorem State.storeBytes_driver (s : State) (a : Nat) (bs : List Byte) : (s.storeBytes a bs).driver = s.driver := rfl
@[simp] theorem State.storeBytes_reg (s : State) (a : Nat) (bs : List Byte) (y : RegIndex) : (s.storeBytes a bs).reg y = s.reg y := rfl
@[simp] theorem State.storeBytes_stackAt (s : State) (a : Nat) (bs : List Byte) (j : Fin 16) : (s.storeBytes a bs).stackAt j = s.stackAt j := rfl
@[simp] theorem State.storeBytes_pixel (s : State) (a : Nat) (bs : List Byte) (r : Fin 32) (col : Fin 64) : (s.storeBytes a bs).pixel r col = s.pixel r col := rfl
@[simp] theorem State.storeBytes_key (s : State) (a : Nat) (bs : List Byte) (k' : KeyIndex) : (s.storeBytes a bs).key k' = s.key k' := rfl
@[simp] theorem State.storeBytes_prevKey (s : State) (a : Nat) (bs : List Byte) (k' : KeyIndex) : (s.storeBytes a bs).prevKey k' = s.prevKey k' := rfl

/-! ### `State.setDisplay` -/

@[simp] theorem State.setDisplay_v (s : State) (d : Display) : (s.setDisplay d).v = s.v := rfl
@[simp] theorem State.setDisplay_i (s : State) (d : Display) : (s.setDisplay d).i = s.i := rfl
@[simp] theorem State.setDisplay_dt (s : State) (d : Display) : (s.setDisplay d).dt = s.dt := rfl
@[simp] theorem State.setDisplay_st (s : State) (d : Display) : (s.setDisplay d).st = s.st := rfl
@[simp] theorem State.setDisplay_pc (s : State) (d : Display) : (s.setDisplay d).pc = s.pc := rfl
@[simp] theorem State.setDisplay_sp (s : State) (d : Display) : (s.setDisplay d).sp = s.sp := rfl
@[simp] theorem State.setDisplay_stack (s : State) (d : Display) : (s.setDisplay d).stack = s.stack := rfl
@[simp] theorem State.setDisplay_mem (s : State) (d : Display) : (s.setDisplay d).mem = s.mem := rfl
@[simp] theorem State.setDisplay_disp (s : State) (d : Display) : (s.setDisplay d).disp = d := rfl
@[simp] theorem State.setDisplay_keys (s : State) (d : Display) : (s.setDisplay d).keys = s.keys := rfl
@[simp] theorem State.setDisplay_keyPrev (s : State) (d : Display) : (s.setDisplay d).keyPrev = s.keyPrev := rfl
@[simp] theorem State.setDisplay_status (s : State) (d : Display) : (s.setDisplay d).status = s.status := rfl
@[simp] theorem State.setDisplay_params (s : State) (d : Display) : (s.setDisplay d).params = s.params := rfl
@[simp] theorem State.setDisplay_draws (s : State) (d : Display) : (s.setDisplay d).draws = s.draws := rfl
@[simp] theorem State.setDisplay_driver (s : State) (d : Display) : (s.setDisplay d).driver = s.driver := rfl
@[simp] theorem State.setDisplay_reg (s : State) (d : Display) (y : RegIndex) : (s.setDisplay d).reg y = s.reg y := rfl
@[simp] theorem State.setDisplay_stackAt (s : State) (d : Display) (j : Fin 16) : (s.setDisplay d).stackAt j = s.stackAt j := rfl
@[simp] theorem State.setDisplay_readByte (s : State) (d : Display) (a' : Nat) : (s.setDisplay d).readByte a' = s.readByte a' := rfl
@[simp] theorem State.setDisplay_key (s : State) (d : Display) (k' : KeyIndex) : (s.setDisplay d).key k' = s.key k' := rfl
@[simp] theorem State.setDisplay_prevKey (s : State) (d : Display) (k' : KeyIndex) : (s.setDisplay d).prevKey k' = s.prevKey k' := rfl

/-! ### `State.writeKey` -/

@[simp] theorem State.writeKey_v (s : State) (k : KeyIndex) (b : Bool) : (s.writeKey k b).v = s.v := rfl
@[simp] theorem State.writeKey_i (s : State) (k : KeyIndex) (b : Bool) : (s.writeKey k b).i = s.i := rfl
@[simp] theorem State.writeKey_dt (s : State) (k : KeyIndex) (b : Bool) : (s.writeKey k b).dt = s.dt := rfl
@[simp] theorem State.writeKey_st (s : State) (k : KeyIndex) (b : Bool) : (s.writeKey k b).st = s.st := rfl
@[simp] theorem State.writeKey_pc (s : State) (k : KeyIndex) (b : Bool) : (s.writeKey k b).pc = s.pc := rfl
@[simp] theorem State.writeKey_sp (s : State) (k : KeyIndex) (b : Bool) : (s.writeKey k b).sp = s.sp := rfl
@[simp] theorem State.writeKey_stack (s : State) (k : KeyIndex) (b : Bool) : (s.writeKey k b).stack = s.stack := rfl
@[simp] theorem State.writeKey_mem (s : State) (k : KeyIndex) (b : Bool) : (s.writeKey k b).mem = s.mem := rfl
@[simp] theorem State.writeKey_disp (s : State) (k : KeyIndex) (b : Bool) : (s.writeKey k b).disp = s.disp := rfl
@[simp] theorem State.writeKey_keys (s : State) (k : KeyIndex) (b : Bool) : (s.writeKey k b).keys = s.keys.set k.toNat b k.isLt := rfl
@[simp] theorem State.writeKey_keyPrev (s : State) (k : KeyIndex) (b : Bool) : (s.writeKey k b).keyPrev = s.keyPrev := rfl
@[simp] theorem State.writeKey_status (s : State) (k : KeyIndex) (b : Bool) : (s.writeKey k b).status = s.status := rfl
@[simp] theorem State.writeKey_params (s : State) (k : KeyIndex) (b : Bool) : (s.writeKey k b).params = s.params := rfl
@[simp] theorem State.writeKey_draws (s : State) (k : KeyIndex) (b : Bool) : (s.writeKey k b).draws = s.draws := rfl
@[simp] theorem State.writeKey_driver (s : State) (k : KeyIndex) (b : Bool) : (s.writeKey k b).driver = s.driver := rfl
@[simp] theorem State.writeKey_reg (s : State) (k : KeyIndex) (b : Bool) (y : RegIndex) : (s.writeKey k b).reg y = s.reg y := rfl
@[simp] theorem State.writeKey_stackAt (s : State) (k : KeyIndex) (b : Bool) (j : Fin 16) : (s.writeKey k b).stackAt j = s.stackAt j := rfl
@[simp] theorem State.writeKey_readByte (s : State) (k : KeyIndex) (b : Bool) (a' : Nat) : (s.writeKey k b).readByte a' = s.readByte a' := rfl
@[simp] theorem State.writeKey_pixel (s : State) (k : KeyIndex) (b : Bool) (r : Fin 32) (col : Fin 64) : (s.writeKey k b).pixel r col = s.pixel r col := rfl
@[simp] theorem State.writeKey_prevKey (s : State) (k : KeyIndex) (b : Bool) (k' : KeyIndex) : (s.writeKey k b).prevKey k' = s.prevKey k' := rfl

/-! ### `State.sampleKeys` -/

@[simp] theorem State.sampleKeys_v (s : State) : (s.sampleKeys).v = s.v := rfl
@[simp] theorem State.sampleKeys_i (s : State) : (s.sampleKeys).i = s.i := rfl
@[simp] theorem State.sampleKeys_dt (s : State) : (s.sampleKeys).dt = s.dt := rfl
@[simp] theorem State.sampleKeys_st (s : State) : (s.sampleKeys).st = s.st := rfl
@[simp] theorem State.sampleKeys_pc (s : State) : (s.sampleKeys).pc = s.pc := rfl
@[simp] theorem State.sampleKeys_sp (s : State) : (s.sampleKeys).sp = s.sp := rfl
@[simp] theorem State.sampleKeys_stack (s : State) : (s.sampleKeys).stack = s.stack := rfl
@[simp] theorem State.sampleKeys_mem (s : State) : (s.sampleKeys).mem = s.mem := rfl
@[simp] theorem State.sampleKeys_disp (s : State) : (s.sampleKeys).disp = s.disp := rfl
@[simp] theorem State.sampleKeys_keys (s : State) : (s.sampleKeys).keys = s.keys := rfl
@[simp] theorem State.sampleKeys_keyPrev (s : State) : (s.sampleKeys).keyPrev = s.keys := rfl
@[simp] theorem State.sampleKeys_status (s : State) : (s.sampleKeys).status = s.status := rfl
@[simp] theorem State.sampleKeys_params (s : State) : (s.sampleKeys).params = s.params := rfl
@[simp] theorem State.sampleKeys_draws (s : State) : (s.sampleKeys).draws = s.draws := rfl
@[simp] theorem State.sampleKeys_driver (s : State) : (s.sampleKeys).driver = s.driver := rfl
@[simp] theorem State.sampleKeys_reg (s : State) (y : RegIndex) : (s.sampleKeys).reg y = s.reg y := rfl
@[simp] theorem State.sampleKeys_stackAt (s : State) (j : Fin 16) : (s.sampleKeys).stackAt j = s.stackAt j := rfl
@[simp] theorem State.sampleKeys_readByte (s : State) (a' : Nat) : (s.sampleKeys).readByte a' = s.readByte a' := rfl
@[simp] theorem State.sampleKeys_pixel (s : State) (r : Fin 32) (col : Fin 64) : (s.sampleKeys).pixel r col = s.pixel r col := rfl
@[simp] theorem State.sampleKeys_key (s : State) (k' : KeyIndex) : (s.sampleKeys).key k' = s.key k' := rfl

/-! ### `State.halt` -/

@[simp] theorem State.halt_v (s : State) (e : HaltReason) : (s.halt e).v = s.v := rfl
@[simp] theorem State.halt_i (s : State) (e : HaltReason) : (s.halt e).i = s.i := rfl
@[simp] theorem State.halt_dt (s : State) (e : HaltReason) : (s.halt e).dt = s.dt := rfl
@[simp] theorem State.halt_st (s : State) (e : HaltReason) : (s.halt e).st = s.st := rfl
@[simp] theorem State.halt_pc (s : State) (e : HaltReason) : (s.halt e).pc = s.pc := rfl
@[simp] theorem State.halt_sp (s : State) (e : HaltReason) : (s.halt e).sp = s.sp := rfl
@[simp] theorem State.halt_stack (s : State) (e : HaltReason) : (s.halt e).stack = s.stack := rfl
@[simp] theorem State.halt_mem (s : State) (e : HaltReason) : (s.halt e).mem = s.mem := rfl
@[simp] theorem State.halt_disp (s : State) (e : HaltReason) : (s.halt e).disp = s.disp := rfl
@[simp] theorem State.halt_keys (s : State) (e : HaltReason) : (s.halt e).keys = s.keys := rfl
@[simp] theorem State.halt_keyPrev (s : State) (e : HaltReason) : (s.halt e).keyPrev = s.keyPrev := rfl
@[simp] theorem State.halt_status (s : State) (e : HaltReason) : (s.halt e).status = .halted e := rfl
@[simp] theorem State.halt_params (s : State) (e : HaltReason) : (s.halt e).params = s.params := rfl
@[simp] theorem State.halt_draws (s : State) (e : HaltReason) : (s.halt e).draws = s.draws := rfl
@[simp] theorem State.halt_driver (s : State) (e : HaltReason) : (s.halt e).driver = s.driver := rfl
@[simp] theorem State.halt_reg (s : State) (e : HaltReason) (y : RegIndex) : (s.halt e).reg y = s.reg y := rfl
@[simp] theorem State.halt_stackAt (s : State) (e : HaltReason) (j : Fin 16) : (s.halt e).stackAt j = s.stackAt j := rfl
@[simp] theorem State.halt_readByte (s : State) (e : HaltReason) (a' : Nat) : (s.halt e).readByte a' = s.readByte a' := rfl
@[simp] theorem State.halt_pixel (s : State) (e : HaltReason) (r : Fin 32) (col : Fin 64) : (s.halt e).pixel r col = s.pixel r col := rfl
@[simp] theorem State.halt_key (s : State) (e : HaltReason) (k' : KeyIndex) : (s.halt e).key k' = s.key k' := rfl
@[simp] theorem State.halt_prevKey (s : State) (e : HaltReason) (k' : KeyIndex) : (s.halt e).prevKey k' = s.prevKey k' := rfl

/-! ### `State.nextDraw` -/

@[simp] theorem State.nextDraw_v (s : State) : (s.nextDraw).v = s.v := rfl
@[simp] theorem State.nextDraw_i (s : State) : (s.nextDraw).i = s.i := rfl
@[simp] theorem State.nextDraw_dt (s : State) : (s.nextDraw).dt = s.dt := rfl
@[simp] theorem State.nextDraw_st (s : State) : (s.nextDraw).st = s.st := rfl
@[simp] theorem State.nextDraw_pc (s : State) : (s.nextDraw).pc = s.pc := rfl
@[simp] theorem State.nextDraw_sp (s : State) : (s.nextDraw).sp = s.sp := rfl
@[simp] theorem State.nextDraw_stack (s : State) : (s.nextDraw).stack = s.stack := rfl
@[simp] theorem State.nextDraw_mem (s : State) : (s.nextDraw).mem = s.mem := rfl
@[simp] theorem State.nextDraw_disp (s : State) : (s.nextDraw).disp = s.disp := rfl
@[simp] theorem State.nextDraw_keys (s : State) : (s.nextDraw).keys = s.keys := rfl
@[simp] theorem State.nextDraw_keyPrev (s : State) : (s.nextDraw).keyPrev = s.keyPrev := rfl
@[simp] theorem State.nextDraw_status (s : State) : (s.nextDraw).status = s.status := rfl
@[simp] theorem State.nextDraw_params (s : State) : (s.nextDraw).params = s.params := rfl
@[simp] theorem State.nextDraw_draws (s : State) : (s.nextDraw).draws = s.draws + 1 := rfl
@[simp] theorem State.nextDraw_driver (s : State) : (s.nextDraw).driver = s.driver := rfl
@[simp] theorem State.nextDraw_reg (s : State) (y : RegIndex) : (s.nextDraw).reg y = s.reg y := rfl
@[simp] theorem State.nextDraw_stackAt (s : State) (j : Fin 16) : (s.nextDraw).stackAt j = s.stackAt j := rfl
@[simp] theorem State.nextDraw_readByte (s : State) (a' : Nat) : (s.nextDraw).readByte a' = s.readByte a' := rfl
@[simp] theorem State.nextDraw_pixel (s : State) (r : Fin 32) (col : Fin 64) : (s.nextDraw).pixel r col = s.pixel r col := rfl
@[simp] theorem State.nextDraw_key (s : State) (k' : KeyIndex) : (s.nextDraw).key k' = s.key k' := rfl
@[simp] theorem State.nextDraw_prevKey (s : State) (k' : KeyIndex) : (s.nextDraw).prevKey k' = s.prevKey k' := rfl

/-! ### `State.setDriver` -/

@[simp] theorem State.setDriver_v (s : State) (ops : List DriverOp) : (s.setDriver ops).v = s.v := rfl
@[simp] theorem State.setDriver_i (s : State) (ops : List DriverOp) : (s.setDriver ops).i = s.i := rfl
@[simp] theorem State.setDriver_dt (s : State) (ops : List DriverOp) : (s.setDriver ops).dt = s.dt := rfl
@[simp] theorem State.setDriver_st (s : State) (ops : List DriverOp) : (s.setDriver ops).st = s.st := rfl
@[simp] theorem State.setDriver_pc (s : State) (ops : List DriverOp) : (s.setDriver ops).pc = s.pc := rfl
@[simp] theorem State.setDriver_sp (s : State) (ops : List DriverOp) : (s.setDriver ops).sp = s.sp := rfl
@[simp] theorem State.setDriver_stack (s : State) (ops : List DriverOp) : (s.setDriver ops).stack = s.stack := rfl
@[simp] theorem State.setDriver_mem (s : State) (ops : List DriverOp) : (s.setDriver ops).mem = s.mem := rfl
@[simp] theorem State.setDriver_disp (s : State) (ops : List DriverOp) : (s.setDriver ops).disp = s.disp := rfl
@[simp] theorem State.setDriver_keys (s : State) (ops : List DriverOp) : (s.setDriver ops).keys = s.keys := rfl
@[simp] theorem State.setDriver_keyPrev (s : State) (ops : List DriverOp) : (s.setDriver ops).keyPrev = s.keyPrev := rfl
@[simp] theorem State.setDriver_status (s : State) (ops : List DriverOp) : (s.setDriver ops).status = s.status := rfl
@[simp] theorem State.setDriver_params (s : State) (ops : List DriverOp) : (s.setDriver ops).params = s.params := rfl
@[simp] theorem State.setDriver_draws (s : State) (ops : List DriverOp) : (s.setDriver ops).draws = s.draws := rfl
@[simp] theorem State.setDriver_driver (s : State) (ops : List DriverOp) : (s.setDriver ops).driver = ops := rfl
@[simp] theorem State.setDriver_reg (s : State) (ops : List DriverOp) (y : RegIndex) : (s.setDriver ops).reg y = s.reg y := rfl
@[simp] theorem State.setDriver_stackAt (s : State) (ops : List DriverOp) (j : Fin 16) : (s.setDriver ops).stackAt j = s.stackAt j := rfl
@[simp] theorem State.setDriver_readByte (s : State) (ops : List DriverOp) (a' : Nat) : (s.setDriver ops).readByte a' = s.readByte a' := rfl
@[simp] theorem State.setDriver_pixel (s : State) (ops : List DriverOp) (r : Fin 32) (col : Fin 64) : (s.setDriver ops).pixel r col = s.pixel r col := rfl
@[simp] theorem State.setDriver_key (s : State) (ops : List DriverOp) (k' : KeyIndex) : (s.setDriver ops).key k' = s.key k' := rfl
@[simp] theorem State.setDriver_prevKey (s : State) (ops : List DriverOp) (k' : KeyIndex) : (s.setDriver ops).prevKey k' = s.prevKey k' := rfl

end Sys2Proof.Machine
end

