-- ==== Sys2Proof/Laws/Display.lean ====
section
/-! SUPPORT. What plotting does to the display: one pixel (`Display.get_put`), one sprite bit (`plot_get`, `plot_collision`), and a
whole list of sprite bits that fall on distinct pixels (`plotAll_get`, `plotAll_collision`), to which Draw reduces
(`State.drawSprite_eq_plotAll`). -/

namespace Sys2Proof.Machine

/-- A pixel reads back what was put there, every other one as before; coordinates wrap. -/
theorem Display.get_put (d : Display) (r c r' c' : Nat) (b : Bool) :
    Display.get (Display.put d r c b) r' c' =
      if r' % 32 = r % 32 ∧ c' % 64 = c % 64 then b else Display.get d r' c' := by
  unfold Display.get Display.put
  by_cases hr : r' % 32 = r % 32
  · by_cases hc : c' % 64 = c % 64
    · simp [hr, hc]
    · simp [hr, hc, Ne.symm hc]
  · simp [hr, Ne.symm hr]

/-- The pixel `(r, c)` of the state is the display's. -/
theorem State.pixel_eq_get (s : State) (r : Fin 32) (c : Fin 64) : s.pixel r c = Display.get s.disp r.val c.val := by
  simp [State.pixel, Display.get, Nat.mod_eq_of_lt r.isLt, Nat.mod_eq_of_lt c.isLt]

/-- One sprite bit: where it falls and whether it is drawn at all. -/
structure SpriteBit where
  row : Nat
  col : Nat
  on : Bool

/-- The bit toggles its pixel: it is set and not clipped. -/
def SpriteBit.active (clip : Bool) (e : SpriteBit) : Bool := e.on && !clipped clip e.col e.row

/-- The bit falls on the pixel `(r, c)`. -/
def SpriteBit.hits (e : SpriteBit) (r c : Nat) : Bool := decide (r % 32 = e.row % 32 ∧ c % 64 = e.col % 64)

theorem SpriteBit.active_iff (clip : Bool) (e : SpriteBit) :
    e.active clip = true ↔ e.on = true ∧ (clip = true → e.col < 64 ∧ e.row < 32) := by
  unfold SpriteBit.active clipped
  cases clip <;> simp

theorem SpriteBit.hits_iff (e : SpriteBit) (r c : Nat) :
    e.hits r c = true ↔ r % 32 = e.row % 32 ∧ c % 64 = e.col % 64 := by
  unfold SpriteBit.hits
  exact decide_eq_true_iff

/-- Draw one sprite bit. -/
def plotBit (clip : Bool) (d : DrawState) (e : SpriteBit) : DrawState := if e.on then plot clip e.row e.col d else d

/-- One bit toggles the pixel it hits and no other. -/
theorem plotBit_get (clip : Bool) (d : DrawState) (e : SpriteBit) (r c : Nat) :
    Display.get (plotBit clip d e).1 r c = (Display.get d.1 r c ^^ (e.active clip && e.hits r c)) := by
  unfold plotBit plot SpriteBit.active
  by_cases ho : e.on = true
  · by_cases hc : clipped clip e.col e.row = true
    · simp [ho, hc]
    · by_cases hh : r % 32 = e.row % 32 ∧ c % 64 = e.col % 64
      · have : Display.get d.1 r c = Display.get d.1 e.row e.col := by simp [Display.get, hh.1, hh.2]
        simp [ho, hc, Display.get_put, SpriteBit.hits, hh, this]
      · have h2 : e.hits r c = false := by simpa [SpriteBit.hits] using hh
        simp [ho, hc, h2, Display.get_put, hh]
  · simp [ho]

/-- One bit collides when it toggles a lit pixel. -/
theorem plotBit_collision (clip : Bool) (d : DrawState) (e : SpriteBit) :
    (plotBit clip d e).2 = (d.2 || (e.active clip && Display.get d.1 e.row e.col)) := by
  unfold plotBit plot SpriteBit.active
  by_cases ho : e.on = true
  · by_cases hc : clipped clip e.col e.row = true <;> simp [ho, hc]
  · simp [ho]

/-- Two bits fall on different pixels. -/
def SpriteBit.apart (e f : SpriteBit) : Prop := ¬ (e.row % 32 = f.row % 32 ∧ e.col % 64 = f.col % 64)

/-- Bits on distinct pixels: each pixel hit by an active bit is toggled once, the others stay. -/
theorem plotAll_get (clip : Bool) (es : List SpriteBit) (h : es.Pairwise SpriteBit.apart) (d : DrawState) (r c : Nat) :
    Display.get (es.foldl (plotBit clip) d).1 r c =
      (Display.get d.1 r c ^^ es.any fun e => e.active clip && e.hits r c) := by
  induction es generalizing d with
  | nil => simp
  | cons e es ih =>
    rw [List.pairwise_cons] at h
    rw [List.foldl_cons, ih h.2, plotBit_get, List.any_cons, Bool.xor_assoc]
    by_cases he : (e.active clip && e.hits r c) = true
    · have : (es.any fun f => f.active clip && f.hits r c) = false := by
        rw [List.any_eq_false]
        intro f hf hh
        simp only [Bool.and_eq_true, SpriteBit.hits, decide_eq_true_eq] at he hh
        exact h.1 f hf ⟨by omega, by omega⟩
      simp [he, this]
    · simp only [Bool.not_eq_true] at he
      simp [he]

/-- Bits on distinct pixels: the draw collides when an active bit falls on a pixel lit before the draw. -/
theorem plotAll_collision (clip : Bool) (es : List SpriteBit) (h : es.Pairwise SpriteBit.apart) (d : DrawState) :
    (es.foldl (plotBit clip) d).2 = (d.2 || es.any fun e => e.active clip && Display.get d.1 e.row e.col) := by
  induction es generalizing d with
  | nil => simp
  | cons e es ih =>
    rw [List.pairwise_cons] at h
    rw [List.foldl_cons, ih h.2, plotBit_collision, List.any_cons, Bool.or_assoc]
    have : (es.any fun f => f.active clip && Display.get (plotBit clip d e).1 f.row f.col) =
        es.any fun f => f.active clip && Display.get d.1 f.row f.col := by
      rw [Bool.eq_iff_iff, List.any_eq_true, List.any_eq_true]
      refine exists_congr fun f => and_congr_right fun hf => ?_
      have hm : e.hits f.row f.col = false := by
        simp only [SpriteBit.hits, decide_eq_false_iff_not]
        exact fun hh => h.1 f hf ⟨hh.1.symm, hh.2.symm⟩
      rw [plotBit_get, hm]; simp
    rw [this]

/-- The bits of one sprite row. -/
def rowBits (x0 py : Nat) (row : Byte) : List SpriteBit :=
  (List.range 8).map fun c => ⟨py, x0 + c, rowBit row c⟩

theorem drawRow_eq_plotAll (clip : Bool) (x0 py : Nat) (row : Byte) (d : DrawState) :
    drawRow clip x0 py row d = (rowBits x0 py row).foldl (plotBit clip) d := by
  unfold drawRow rowBits
  rw [List.foldl_map]
  rfl

/-- The bits of the sprite Draw reads, in drawing order. -/
def State.spriteBits (s : State) (x y : RegIndex) (n : Nibble) : List SpriteBit :=
  (List.range n.toNat).flatMap fun r => rowBits (s.drawColumn x) (s.drawRow0 y + r) (s.readByte (s.ea r))

/-- The sprite's bits: bit `7 - j` of the byte at `I + k`, at row offset `k` and column offset `j` (R200). -/
theorem State.mem_spriteBits (s : State) (x y : RegIndex) (n : Nibble) (e : SpriteBit) :
    e ∈ s.spriteBits x y n ↔ ∃ k < n.toNat, ∃ j < 8,
      e = ⟨(s.reg y).toNat % 32 + k, (s.reg x).toNat % 64 + j, (s.readByte (s.i.toNat + k)).getLsbD (7 - j)⟩ := by
  simp only [State.spriteBits, rowBits, List.mem_flatMap, List.mem_map, List.mem_range]
  constructor
  · rintro ⟨k, hk, j, hj, rfl⟩; exact ⟨k, hk, j, hj, rfl⟩
  · rintro ⟨k, hk, j, hj, rfl⟩; exact ⟨k, hk, j, hj, rfl⟩

/-- Draw is the drawing of the sprite's bits one after the other. -/
theorem State.drawSprite_eq_plotAll (s : State) (x y : RegIndex) (n : Nibble) :
    s.drawSprite x y n = (s.spriteBits x y n).foldl (plotBit s.params.drawClip) (s.disp, false) := by
  unfold State.drawSprite State.spriteBits
  rw [List.foldl_flatMap]
  simp only [drawRow_eq_plotAll]

/-- A sprite never overlaps itself: 8 columns < 64 and at most 15 rows < 32 (44_display.md R201). -/
theorem State.spriteBits_apart (s : State) (x y : RegIndex) (n : Nibble) :
    (s.spriteBits x y n).Pairwise SpriteBit.apart := by
  unfold State.spriteBits
  rw [List.pairwise_flatMap]
  have hn : n.toNat < 16 := n.isLt
  refine ⟨fun r _ => ?_, ?_⟩
  · unfold rowBits
    rw [List.pairwise_map]
    refine List.Pairwise.imp_of_mem ?_ (List.pairwise_lt_range (n := 8))
    intro a b ha hb hab
    rw [List.mem_range] at ha hb
    rintro ⟨-, h⟩
    simp only at h
    omega
  · refine List.Pairwise.imp_of_mem ?_ (List.pairwise_lt_range (n := n.toNat))
    intro a b ha hb hab e he f hf
    rw [List.mem_range] at ha hb
    unfold rowBits at he hf
    simp only [List.mem_map] at he hf
    obtain ⟨_, -, rfl⟩ := he
    obtain ⟨_, -, rfl⟩ := hf
    rintro ⟨h, -⟩
    simp only at h
    omega

/-- Every pixel of a cleared screen is 0 (R203). -/
theorem get_clearScreen (r c : Nat) : Display.get clearScreen r c = false := by
  simp [Display.get, clearScreen]

/-- The display after a write of the whole buffer. -/
@[simp] theorem State.pixel_setDisplay (s : State) (d : Display) (r : Fin 32) (c : Fin 64) :
    (s.setDisplay d).pixel r c = Display.get d r.val c.val := State.pixel_eq_get _ r c

end Sys2Proof.Machine
end

