-- ==== Sys2Proof/Laws/Memory.lean ====
section
/-! SUPPORT. The laws of memory: a read after a write, the bytes a run of writes leaves alone, and the canonical form kept by
every operation. -/

namespace Sys2Proof.Machine

/-! ### Lookup after an update of the list -/

theorem Memory.find_erase (m : Memory) (a c : Nat) :
    (Memory.erase m a).find c = if c = a then none else Memory.find m c := by
  induction m with
  | nil => simp [Memory.erase, Memory.find]
  | cons e m ih =>
    obtain ⟨k, b⟩ := e
    by_cases hk : k = a
    · subst hk
      by_cases hc : c = k
      · subst hc; simpa [Memory.erase] using ih
      · simp [Memory.erase, Memory.find, ih, hc, Ne.symm hc]
    · by_cases hc : c = a
      · subst hc
        simp [Memory.erase, Memory.find, ih, hk]
      · simp [Memory.erase, Memory.find, ih, hk, hc]

theorem Memory.find_insert (m : Memory) (a c : Nat) (b : Byte) :
    (Memory.insert m a b).find c = if c = a then some b else Memory.find m c := by
  induction m with
  | nil => simp [Memory.insert, Memory.find, eq_comm]
  | cons e m ih =>
    obtain ⟨k, d⟩ := e
    by_cases hlt : a < k
    · by_cases hc : c = a
      · simp [Memory.insert, Memory.find, hlt, hc]
      · simp [Memory.insert, Memory.find, hlt, hc, Ne.symm hc]
    · by_cases hk : a = k
      · subst hk
        by_cases hc : c = a
        · simp [Memory.insert, Memory.find, hc]
        · simp [Memory.insert, Memory.find, hc, Ne.symm hc]
      · by_cases hc : c = a
        · subst hc
          simp [Memory.insert, Memory.find, hlt, hk, ih, Ne.symm hk]
        · simp [Memory.insert, Memory.find, hlt, hk, ih, hc]

/-! ### Read after write -/

/-- A read after a write: the byte written at its address, the old byte everywhere else. -/
theorem Memory.read_write (p : Config.Params) (m : Memory) (a c : Nat) (b : Byte) :
    Memory.read p (Memory.write p m a b) c = if c = a then b else Memory.read p m c := by
  unfold Memory.write Memory.read
  by_cases hb : b = initialByte p a
  · by_cases hc : c = a
    · subst hc; simp [hb, Memory.find_erase]
    · simp [hb, Memory.find_erase, hc]
  · by_cases hc : c = a <;> simp [hb, Memory.find_insert, hc]

/-- A read after a run of writes: the byte of the run that covers the address, or the old byte. -/
theorem Memory.read_writeBytes (p : Config.Params) (bs : List Byte) (m : Memory) (a c : Nat) :
    Memory.read p (Memory.writeBytes p m a bs) c =
      if a ≤ c then (bs[c - a]?).getD (Memory.read p m c) else Memory.read p m c := by
  induction bs generalizing m a with
  | nil => simp [Memory.writeBytes]
  | cons b bs ih =>
    simp only [Memory.writeBytes, ih, Memory.read_write]
    by_cases h1 : a + 1 ≤ c
    · have h2 : c - a = (c - (a + 1)) + 1 := by omega
      have h3 : c ≠ a := by omega
      have h4 : a ≤ c := by omega
      simp [h1, h2, h3, h4]
    · by_cases h2 : c = a
      · subst h2; simp
      · have h3 : ¬ a ≤ c := by omega
        simp [h1, h2, h3]

/-- Every address outside `a .. a + length - 1` reads as before. -/
theorem Memory.read_writeBytes_outside (p : Config.Params) (bs : List Byte) (m : Memory) (a c : Nat)
    (h : c < a ∨ a + bs.length ≤ c) : Memory.read p (Memory.writeBytes p m a bs) c = Memory.read p m c := by
  rw [Memory.read_writeBytes]
  split
  · rw [List.getElem?_eq_none (by omega)]; rfl
  · rfl

/-- The address `a + k` of the run reads as its `k`-th byte. -/
theorem Memory.read_writeBytes_inside (p : Config.Params) (bs : List Byte) (m : Memory) (a k : Nat) (h : k < bs.length) :
    Memory.read p (Memory.writeBytes p m a bs) (a + k) = bs[k] := by
  rw [Memory.read_writeBytes]; simp [h]

/-! ### The canonical form -/

theorem Memory.wfFrom_mono (p : Config.Params) {lo lo' : Nat} (m : Memory) (hlo : lo' ≤ lo)
    (h : Memory.wfFrom p lo m = true) : Memory.wfFrom p lo' m = true := by
  cases m with
  | nil => rfl
  | cons e m =>
    obtain ⟨k, b⟩ := e
    simp only [Memory.wfFrom, Bool.and_eq_true, decide_eq_true_eq] at h ⊢
    exact ⟨⟨⟨by omega, h.1.1.2⟩, h.1.2⟩, h.2⟩

theorem Memory.wfFrom_erase (p : Config.Params) (m : Memory) (lo a : Nat) (h : Memory.wfFrom p lo m = true) :
    Memory.wfFrom p lo (Memory.erase m a) = true := by
  induction m generalizing lo with
  | nil => rfl
  | cons e m ih =>
    obtain ⟨k, b⟩ := e
    simp only [Memory.wfFrom, Bool.and_eq_true, decide_eq_true_eq] at h
    unfold Memory.erase
    split
    · exact Memory.wfFrom_mono p _ (by omega) (ih _ h.2)
    · simp only [Memory.wfFrom, Bool.and_eq_true, decide_eq_true_eq]
      exact ⟨h.1, ih _ h.2⟩

theorem Memory.wfFrom_insert (p : Config.Params) (m : Memory) (lo a : Nat) (b : Byte) (hlo : lo ≤ a)
    (ha : a < memorySize) (hb : b ≠ initialByte p a) (h : Memory.wfFrom p lo m = true) :
    Memory.wfFrom p lo (Memory.insert m a b) = true := by
  induction m generalizing lo with
  | nil => simp [Memory.insert, Memory.wfFrom, hlo, ha, hb]
  | cons e m ih =>
    obtain ⟨k, c⟩ := e
    simp only [Memory.wfFrom, Bool.and_eq_true, decide_eq_true_eq] at h
    unfold Memory.insert
    split
    · simp only [Memory.wfFrom, Bool.and_eq_true, decide_eq_true_eq]
      exact ⟨⟨⟨hlo, ha⟩, hb⟩, ⟨⟨by omega, h.1.1.2⟩, h.1.2⟩, h.2⟩
    · split
      · next hk =>
        subst hk
        simp only [Memory.wfFrom, Bool.and_eq_true, decide_eq_true_eq]
        exact ⟨⟨⟨hlo, ha⟩, hb⟩, h.2⟩
      · simp only [Memory.wfFrom, Bool.and_eq_true, decide_eq_true_eq]
        exact ⟨h.1, ih _ (by omega) h.2⟩

/-- A write within the image keeps the canonical form. -/
theorem Memory.wf_write (p : Config.Params) (m : Memory) (a : Nat) (b : Byte) (ha : a < memorySize)
    (h : Memory.wf p m = true) : Memory.wf p (Memory.write p m a b) = true := by
  unfold Memory.write
  split
  · exact Memory.wfFrom_erase p m 0 a h
  · next hb => exact Memory.wfFrom_insert p m 0 a b (Nat.zero_le _) ha hb h

/-- A run of writes within the image keeps the canonical form. -/
theorem Memory.wf_writeBytes (p : Config.Params) (bs : List Byte) (m : Memory) (a : Nat)
    (ha : a + bs.length ≤ memorySize) (h : Memory.wf p m = true) : Memory.wf p (Memory.writeBytes p m a bs) = true := by
  induction bs generalizing m a with
  | nil => exact h
  | cons b bs ih =>
    simp only [List.length_cons] at ha
    exact ih _ _ (by omega) (Memory.wf_write p m a b (by omega) h)

/-- Memory after reset lists nothing and is canonical. -/
theorem Memory.wf_nil (p : Config.Params) : Memory.wf p [] = true := rfl

end Sys2Proof.Machine
end

