-- ==== Sys2Proof/Laws/Ops.lean ====
section
/-! SUPPORT. One lemma per shared operation that says once what it does to what it writes. -/

namespace Sys2Proof.Machine

/-! ### Registers, stack, keys -/

/-- A register reads back what was last written to it, every other one as before. -/
@[simp] theorem State.reg_setReg (s : State) (x y : RegIndex) (b : Byte) :
    (s.setReg x b).reg y = if y = x then b else s.reg y := by
  unfold State.reg State.setReg
  by_cases h : y = x
  · subst h; simp
  · have : x.toNat ≠ y.toNat := fun e => h (BitVec.eq_of_toNat_eq e.symm)
    simp [h, this]

/-- A flag write is a write of `V[0xF]`. -/
@[simp] theorem State.reg_setFlag (s : State) (y : RegIndex) (f : Byte) :
    (s.setFlag f).reg y = if y = 0xF then f else s.reg y := State.reg_setReg s flagReg y f

/-- A push writes the entry at the old stack pointer. -/
@[simp] theorem State.stackAt_push (s : State) (j : Fin 16) (a : Word) :
    (s.push a).stackAt j = if j.val = s.sp.toNat then a else s.stackAt j := by
  unfold State.stackAt State.push
  by_cases h : j.val = s.sp.toNat
  · simp [h]
  · simp [h, Ne.symm h]

/-- The entry a Return reads is the newest occupied one. -/
theorem State.top_eq (s : State) (j : Fin 16) (h : s.sp.toNat = j.val + 1) : s.top = some (s.stackAt j) := by
  have h1 : (s.sp - 1).toNat = j.val := by
    rw [BitVec.toNat_sub_of_le (by simp [BitVec.le_def, h])]; simp [h]
  unfold State.top State.stackAt
  rw [h1]
  simp

/-- There is no entry to read past the stack. -/
theorem State.top_eq_none (s : State) (h : 16 < s.sp.toNat) : s.top = none := by
  have h1 : (s.sp - 1).toNat = s.sp.toNat - 1 := by
    rw [BitVec.toNat_sub_of_le (by simp [BitVec.le_def]; omega)]; simp
  unfold State.top
  rw [h1]
  simp; omega

/-- A key reads back what SetKey last wrote, every other one as before. -/
@[simp] theorem State.key_writeKey (s : State) (k k' : KeyIndex) (b : Bool) :
    (s.writeKey k b).key k' = if k' = k then b else s.key k' := by
  unfold State.key State.writeKey
  by_cases h : k' = k
  · subst h; simp
  · have : k.toNat ≠ k'.toNat := fun e => h (BitVec.eq_of_toNat_eq e.symm)
    simp [h, this]

/-- The key history after the sampling is the key state. -/
@[simp] theorem State.prevKey_sampleKeys (s : State) (k : KeyIndex) : s.sampleKeys.prevKey k = s.key k := rfl

/-! ### Memory -/

/-- A byte after a store: the stored byte that covers the address, or the old byte. -/
theorem State.readByte_storeBytes (s : State) (a c : Nat) (bs : List Byte) :
    (s.storeBytes a bs).readByte c = if a ≤ c then (bs[c - a]?).getD (s.readByte c) else s.readByte c :=
  Memory.read_writeBytes _ _ _ _ _

/-- A store leaves every address outside its bytes. -/
theorem State.readByte_storeBytes_outside (s : State) (a c : Nat) (bs : List Byte) (h : c < a ∨ a + bs.length ≤ c) :
    (s.storeBytes a bs).readByte c = s.readByte c :=
  Memory.read_writeBytes_outside _ _ _ _ _ h

/-- The `k`-th stored byte stands at `a + k`. -/
theorem State.readByte_storeBytes_inside (s : State) (a k : Nat) (bs : List Byte) (h : k < bs.length) :
    (s.storeBytes a bs).readByte (a + k) = bs[k] :=
  Memory.read_writeBytes_inside _ _ _ _ _ h

/-! ### The range check -/

theorem State.outOfRange_iff (s : State) (len : Nat) : s.outOfRange len = true ↔ 0 < len ∧ 0x1000 < s.i.toNat + len := by
  rw [State.outOfRange, decide_eq_true_iff]; exact Iff.rfl

theorem State.inRange_iff (s : State) (len : Nat) : s.outOfRange len = false ↔ len = 0 ∨ s.i.toNat + len ≤ 0x1000 := by
  rw [← Bool.not_eq_true, State.outOfRange_iff]; omega

/-! ### Bulk transfers -/

@[simp] theorem State.length_regList (s : State) (x : RegIndex) : (s.regList x).length = x.toNat + 1 := by
  simp [State.regList, transferLength]

/-- The `k`-th byte StoreRegisters writes is `V[k]`. -/
theorem State.getElem_regList (s : State) (x y : RegIndex) (h : y.toNat < (s.regList x).length) :
    (s.regList x)[y.toNat] = s.reg y := by
  simp [State.regList]

@[simp] theorem length_bcdDigits (b : Byte) : (bcdDigits b).length = 3 := rfl

/-- What loading the first `m` registers from memory does to each register. -/
theorem State.reg_foldl_load (s : State) (m : Nat) (hm : m ≤ 16) (y : RegIndex) :
    ((List.range m).foldl (fun t k => t.setReg (BitVec.ofNat 4 k) (s.readByte (s.ea k))) s).reg y =
      if y.toNat < m then s.readByte (s.ea y.toNat) else s.reg y := by
  induction m with
  | zero => simp
  | succ m ih =>
    rw [List.range_succ, List.foldl_append]
    simp only [List.foldl_cons, List.foldl_nil, State.reg_setReg]
    rw [ih (by omega)]
    by_cases h : y = BitVec.ofNat 4 m
    · have : y.toNat = m := by rw [h, BitVec.toNat_ofNat]; omega
      rw [if_pos h, if_pos (by omega), this]
    · have : y.toNat ≠ m := fun e => h (BitVec.eq_of_toNat_eq (by rw [BitVec.toNat_ofNat]; omega))
      have h2 : y.toNat < m + 1 ↔ y.toNat < m := by omega
      simp [h, h2]

/-- Loading the registers changes the registers only. -/
theorem State.foldl_load_frame (f : Nat → Byte) (l : List Nat) (t : State) :
    l.foldl (fun t k => t.setReg (BitVec.ofNat 4 k) (f k)) t =
      { t with v := (l.foldl (fun t k => t.setReg (BitVec.ofNat 4 k) (f k)) t).v } := by
  induction l generalizing t with
  | nil => rfl
  | cons k l ih => rw [List.foldl_cons, ih]; simp

/-- LoadRegisters: `V[y]` for `y <= x` is the byte at `I + y`, the others as before. -/
@[simp] theorem State.reg_loadRegs (s : State) (x y : RegIndex) :
    (s.loadRegs x).reg y = if y ≤ x then s.readByte (s.i.toNat + y.toNat) else s.reg y := by
  unfold State.loadRegs transferLength
  rw [State.reg_foldl_load s _ (by have := x.isLt; omega)]
  simp [BitVec.le_def, State.ea, Order.lt_add_one_iff]

/-- LoadRegisters leaves every field but the registers. -/
theorem State.loadRegs_frame (s : State) (x : RegIndex) : s.loadRegs x = { s with v := (s.loadRegs x).v } :=
  State.foldl_load_frame _ _ s

/-- I after a bulk transfer, the other fields as before. -/
theorem State.bumpIndex_eq (s : State) (x : RegIndex) :
    s.bumpIndex x =
      { s with i := if s.params.loadStoreIncrementsI then s.i + BitVec.ofNat 16 (x.toNat + 1) else s.i } := by
  unfold State.bumpIndex transferLength
  split <;> rfl

/-! ### Keys -/

theorem mem_allKeys (k : KeyIndex) : k ∈ allKeys := by
  simp only [allKeys, List.mem_map, List.mem_range]
  exact ⟨k.toNat, k.isLt, by simp⟩

/-- Membership in the candidate set (45_input_timers.md R224). -/
theorem State.mem_candidates (s : State) (k : KeyIndex) :
    k ∈ s.candidates ↔ s.key k = true ∧ (s.params.waitTrigger = .level ∨ s.prevKey k = false) := by
  simp [State.candidates, mem_allKeys, State.isCandidate]

/-- The key chosen is a candidate; none is chosen only of an empty set. -/
theorem chooseKey_cases (c : Nat) (ks : List KeyIndex) :
    (ks = [] ∧ chooseKey c ks = none) ∨ ∃ k ∈ ks, chooseKey c ks = some k := by
  unfold chooseKey
  split
  · exact .inl ⟨rfl, rfl⟩
  · next k => exact .inr ⟨k, by simp, rfl⟩
  · next k ks _ =>
    have h : c % (ks.length + 1) < (k :: ks).length := by
      rw [List.length_cons]; exact Nat.mod_lt _ (Nat.succ_pos _)
    exact .inr ⟨(k :: ks)[c % (ks.length + 1)], List.getElem_mem h, List.getElem?_eq_getElem h⟩

/-- A key index is valid exactly up to 0xF (R222). -/
theorem keyOf_cases (b : Byte) :
    (b.toNat ≤ 0xF ∧ ∃ k, keyOf b = some k ∧ k.toNat = b.toNat) ∨ (0xF < b.toNat ∧ keyOf b = none) := by
  unfold keyOf
  by_cases h : b.toNat ≤ 0xF
  · refine .inl ⟨h, b.setWidth 4, by simp [h], ?_⟩
    rw [BitVec.toNat_setWidth]; omega
  · exact .inr ⟨by omega, by simp [h]⟩

/-- What WaitKeyPress can do: nothing, when no key is a candidate; else it takes a candidate (R223). -/
theorem waitKeyPress_cases (c : Nat) (x : RegIndex) (s : State) :
    (s.candidates = [] ∧ waitKeyPress c x s = s) ∨
      ∃ k ∈ s.candidates, waitKeyPress c x s = (s.setReg x (k.setWidth 8)).advance.nextDraw := by
  unfold waitKeyPress
  obtain ⟨h, e⟩ | ⟨k, hk, e⟩ := chooseKey_cases c s.candidates
  · exact .inl ⟨h, by rw [e]⟩
  · exact .inr ⟨k, hk, by rw [e]⟩

/-! ### Fetch and the end of a Cycle -/

theorem State.fetch_ok (s : State) (h : s.pc.toNat < 0xFFF) : s.fetch = .ok (s.wordAt s.pc.toNat) := by
  have : s.canFetch = true := by
    simp only [State.canFetch, decide_eq_true_eq]; show _ < 4096; omega
  simp [State.fetch, this]

theorem State.fetch_error (s : State) (h : 0xFFF ≤ s.pc.toNat) : s.fetch = .error (.addressOutOfRange s.pc.toNat) := by
  have : s.canFetch = false := by
    simp only [State.canFetch, decide_eq_false_iff_not]; show ¬ _ < 4096; omega
  simp [State.fetch, this]

theorem State.endCycle_running (s : State) (h : s.status = .running) : s.endCycle = s.sampleKeys := by
  simp [State.endCycle, h]

theorem State.endCycle_halted (s : State) (e : HaltReason) (h : s.status = .halted e) : s.endCycle = s := by
  simp [State.endCycle, h]

/-! ### LoadRom -/

/-- LoadRom halts with RomTooLarge, or stores the ROM at 0x200 (70_reset_and_hazards.md R304). -/
theorem State.loadRom_cases (rom : List Byte) (s : State) :
    (3584 < rom.length ∧ s.loadRom rom = s.halt (.romTooLarge rom.length)) ∨
      (rom.length ≤ 3584 ∧ s.loadRom rom = s.storeBytes 0x200 rom) := by
  unfold State.loadRom
  by_cases h : maxRomSize < rom.length
  · exact .inl ⟨h, by simp [h]⟩
  · exact .inr ⟨by simp [maxRomSize] at h; omega, by simp [h, romBase]⟩

end Sys2Proof.Machine
end

