-- ==== Sys2Proof/Laws/Frames.lean ====
section
/-! SUPPORT. What the conditional updates leave alone: the logic flag (VF at most), the index bump (I at most) and the register load
(registers only), one lemma per field and accessor. -/

namespace Sys2Proof.Machine

@[simp] theorem memorySize_eq : memorySize = 4096 := rfl

/-! ### `State.logicFlag` -/

@[simp] theorem State.logicFlag_i (s : State) : (s.logicFlag).i = s.i := by
  unfold State.logicFlag; split <;> rfl
@[simp] theorem State.logicFlag_dt (s : State) : (s.logicFlag).dt = s.dt := by
  unfold State.logicFlag; split <;> rfl
@[simp] theorem State.logicFlag_st (s : State) : (s.logicFlag).st = s.st := by
  unfold State.logicFlag; split <;> rfl
@[simp] theorem State.logicFlag_pc (s : State) : (s.logicFlag).pc = s.pc := by
  unfold State.logicFlag; split <;> rfl
@[simp] theorem State.logicFlag_sp (s : State) : (s.logicFlag).sp = s.sp := by
  unfold State.logicFlag; split <;> rfl
@[simp] theorem State.logicFlag_stack (s : State) : (s.logicFlag).stack = s.stack := by
  unfold State.logicFlag; split <;> rfl
@[simp] theorem State.logicFlag_mem (s : State) : (s.logicFlag).mem = s.mem := by
  unfold State.logicFlag; split <;> rfl
@[simp] theorem State.logicFlag_disp (s : State) : (s.logicFlag).disp = s.disp := by
  unfold State.logicFlag; split <;> rfl
@[simp] theorem State.logicFlag_keys (s : State) : (s.logicFlag).keys = s.keys := by
  unfold State.logicFlag; split <;> rfl
@[simp] theorem State.logicFlag_keyPrev (s : State) : (s.logicFlag).keyPrev = s.keyPrev := by
  unfold State.logicFlag; split <;> rfl
@[simp] theorem State.logicFlag_status (s : State) : (s.logicFlag).status = s.status := by
  unfold State.logicFlag; split <;> rfl
@[simp] theorem State.logicFlag_params (s : State) : (s.logicFlag).params = s.params := by
  unfold State.logicFlag; split <;> rfl
@[simp] theorem State.logicFlag_draws (s : State) : (s.logicFlag).draws = s.draws := by
  unfold State.logicFlag; split <;> rfl
@[simp] theorem State.logicFlag_driver (s : State) : (s.logicFlag).driver = s.driver := by
  unfold State.logicFlag; split <;> rfl
@[simp] theorem State.logicFlag_stackAt (s : State) (j : Fin 16) : (s.logicFlag).stackAt j = s.stackAt j := by
  unfold State.logicFlag; split <;> rfl
@[simp] theorem State.logicFlag_readByte (s : State) (a' : Nat) : (s.logicFlag).readByte a' = s.readByte a' := by
  unfold State.logicFlag; split <;> rfl
@[simp] theorem State.logicFlag_pixel (s : State) (r : Fin 32) (col : Fin 64) : (s.logicFlag).pixel r col = s.pixel r col := by
  unfold State.logicFlag; split <;> rfl
@[simp] theorem State.logicFlag_key (s : State) (k' : KeyIndex) : (s.logicFlag).key k' = s.key k' := by
  unfold State.logicFlag; split <;> rfl
@[simp] theorem State.logicFlag_prevKey (s : State) (k' : KeyIndex) : (s.logicFlag).prevKey k' = s.prevKey k' := by
  unfold State.logicFlag; split <;> rfl

/-- VF after a logic result (42_register_alu.md R164 to R166). -/
theorem State.reg_logicFlag (s : State) (y : RegIndex) :
    s.logicFlag.reg y = if s.params.logicResetsVF = true ∧ y = 0xF then 0 else s.reg y := by
  unfold State.logicFlag
  by_cases h : s.params.logicResetsVF = true <;> simp [h]

/-! ### `State.bumpIndex` -/

@[simp] theorem State.bumpIndex_v (s : State) (x : RegIndex) : (s.bumpIndex x).v = s.v := by
  rw [State.bumpIndex_eq]
@[simp] theorem State.bumpIndex_dt (s : State) (x : RegIndex) : (s.bumpIndex x).dt = s.dt := by
  rw [State.bumpIndex_eq]
@[simp] theorem State.bumpIndex_st (s : State) (x : RegIndex) : (s.bumpIndex x).st = s.st := by
  rw [State.bumpIndex_eq]
@[simp] theorem State.bumpIndex_pc (s : State) (x : RegIndex) : (s.bumpIndex x).pc = s.pc := by
  rw [State.bumpIndex_eq]
@[simp] theorem State.bumpIndex_sp (s : State) (x : RegIndex) : (s.bumpIndex x).sp = s.sp := by
  rw [State.bumpIndex_eq]
@[simp] theorem State.bumpIndex_stack (s : State) (x : RegIndex) : (s.bumpIndex x).stack = s.stack := by
  rw [State.bumpIndex_eq]
@[simp] theorem State.bumpIndex_mem (s : State) (x : RegIndex) : (s.bumpIndex x).mem = s.mem := by
  rw [State.bumpIndex_eq]
@[simp] theorem State.bumpIndex_disp (s : State) (x : RegIndex) : (s.bumpIndex x).disp = s.disp := by
  rw [State.bumpIndex_eq]
@[simp] theorem State.bumpIndex_keys (s : State) (x : RegIndex) : (s.bumpIndex x).keys = s.keys := by
  rw [State.bumpIndex_eq]
@[simp] theorem State.bumpIndex_keyPrev (s : State) (x : RegIndex) : (s.bumpIndex x).keyPrev = s.keyPrev := by
  rw [State.bumpIndex_eq]
@[simp] theorem State.bumpIndex_status (s : State) (x : RegIndex) : (s.bumpIndex x).status = s.status := by
  rw [State.bumpIndex_eq]
@[simp] theorem State.bumpIndex_params (s : State) (x : RegIndex) : (s.bumpIndex x).params = s.params := by
  rw [State.bumpIndex_eq]
@[simp] theorem State.bumpIndex_draws (s : State) (x : RegIndex) : (s.bumpIndex x).draws = s.draws := by
  rw [State.bumpIndex_eq]
@[simp] theorem State.bumpIndex_driver (s : State) (x : RegIndex) : (s.bumpIndex x).driver = s.driver := by
  rw [State.bumpIndex_eq]
@[simp] theorem State.bumpIndex_reg (s : State) (x : RegIndex) (y : RegIndex) : (s.bumpIndex x).reg y = s.reg y := by
  rw [State.bumpIndex_eq]; rfl
@[simp] theorem State.bumpIndex_stackAt (s : State) (x : RegIndex) (j : Fin 16) : (s.bumpIndex x).stackAt j = s.stackAt j := by
  rw [State.bumpIndex_eq]; rfl
@[simp] theorem State.bumpIndex_readByte (s : State) (x : RegIndex) (a' : Nat) : (s.bumpIndex x).readByte a' = s.readByte a' := by
  rw [State.bumpIndex_eq]; rfl
@[simp] theorem State.bumpIndex_pixel (s : State) (x : RegIndex) (r : Fin 32) (col : Fin 64) : (s.bumpIndex x).pixel r col = s.pixel r col := by
  rw [State.bumpIndex_eq]; rfl
@[simp] theorem State.bumpIndex_key (s : State) (x : RegIndex) (k' : KeyIndex) : (s.bumpIndex x).key k' = s.key k' := by
  rw [State.bumpIndex_eq]; rfl
@[simp] theorem State.bumpIndex_prevKey (s : State) (x : RegIndex) (k' : KeyIndex) : (s.bumpIndex x).prevKey k' = s.prevKey k' := by
  rw [State.bumpIndex_eq]; rfl

/-- I after a bulk transfer (46_memory_transfer.md R243, R244). -/
@[simp] theorem State.bumpIndex_i (s : State) (x : RegIndex) :
    (s.bumpIndex x).i = if s.params.loadStoreIncrementsI then s.i + BitVec.ofNat 16 (x.toNat + 1) else s.i := by
  rw [State.bumpIndex_eq]

/-! ### `State.loadRegs` -/

@[simp] theorem State.loadRegs_i (s : State) (x : RegIndex) : (s.loadRegs x).i = s.i := by
  rw [State.loadRegs_frame]
@[simp] theorem State.loadRegs_dt (s : State) (x : RegIndex) : (s.loadRegs x).dt = s.dt := by
  rw [State.loadRegs_frame]
@[simp] theorem State.loadRegs_st (s : State) (x : RegIndex) : (s.loadRegs x).st = s.st := by
  rw [State.loadRegs_frame]
@[simp] theorem State.loadRegs_pc (s : State) (x : RegIndex) : (s.loadRegs x).pc = s.pc := by
  rw [State.loadRegs_frame]
@[simp] theorem State.loadRegs_sp (s : State) (x : RegIndex) : (s.loadRegs x).sp = s.sp := by
  rw [State.loadRegs_frame]
@[simp] theorem State.loadRegs_stack (s : State) (x : RegIndex) : (s.loadRegs x).stack = s.stack := by
  rw [State.loadRegs_frame]
@[simp] theorem State.loadRegs_mem (s : State) (x : RegIndex) : (s.loadRegs x).mem = s.mem := by
  rw [State.loadRegs_frame]
@[simp] theorem State.loadRegs_disp (s : State) (x : RegIndex) : (s.loadRegs x).disp = s.disp := by
  rw [State.loadRegs_frame]
@[simp] theorem State.loadRegs_keys (s : State) (x : RegIndex) : (s.loadRegs x).keys = s.keys := by
  rw [State.loadRegs_frame]
@[simp] theorem State.loadRegs_keyPrev (s : State) (x : RegIndex) : (s.loadRegs x).keyPrev = s.keyPrev := by
  rw [State.loadRegs_frame]
@[simp] theorem State.loadRegs_status (s : State) (x : RegIndex) : (s.loadRegs x).status = s.status := by
  rw [State.loadRegs_frame]
@[simp] theorem State.loadRegs_params (s : State) (x : RegIndex) : (s.loadRegs x).params = s.params := by
  rw [State.loadRegs_frame]
@[simp] theorem State.loadRegs_draws (s : State) (x : RegIndex) : (s.loadRegs x).draws = s.draws := by
  rw [State.loadRegs_frame]
@[simp] theorem State.loadRegs_driver (s : State) (x : RegIndex) : (s.loadRegs x).driver = s.driver := by
  rw [State.loadRegs_frame]
@[simp] theorem State.loadRegs_stackAt (s : State) (x : RegIndex) (j : Fin 16) : (s.loadRegs x).stackAt j = s.stackAt j := by
  rw [State.loadRegs_frame]; rfl
@[simp] theorem State.loadRegs_readByte (s : State) (x : RegIndex) (a' : Nat) : (s.loadRegs x).readByte a' = s.readByte a' := by
  rw [State.loadRegs_frame]; rfl
@[simp] theorem State.loadRegs_pixel (s : State) (x : RegIndex) (r : Fin 32) (col : Fin 64) : (s.loadRegs x).pixel r col = s.pixel r col := by
  rw [State.loadRegs_frame]; rfl
@[simp] theorem State.loadRegs_key (s : State) (x : RegIndex) (k' : KeyIndex) : (s.loadRegs x).key k' = s.key k' := by
  rw [State.loadRegs_frame]; rfl
@[simp] theorem State.loadRegs_prevKey (s : State) (x : RegIndex) (k' : KeyIndex) : (s.loadRegs x).prevKey k' = s.prevKey k' := by
  rw [State.loadRegs_frame]; rfl

end Sys2Proof.Machine
end

