-- ==== Sys2Proof/Laws/PerInstr.lean ====
section
/-! SUPPORT. Laws of the syntax, one lemma per constructor: every field is in range by its width (30_encoding.md R102), and the
encoded word selects a row of the opcode map that builds the instruction (R110, R114). -/

namespace Sys2Proof.Laws

/-- The instruction is well formed (R102). -/
def FieldsInRange.Statement (i : Instr) : Prop := i.wf = true

/-- Some row of the opcode map matches the instruction's word and builds the instruction from it (R110). -/
def EncodesARow.Statement (i : Instr) : Prop :=
  ∃ r ∈ opcodeTable, rowMatches (encode i) r = true ∧ r.build (encode i) = i

/-- The `k`-th row is the one to use. -/
theorem EncodesARow.of_row (i : Instr) (k : Nat) (hk : k < opcodeTable.length)
    (hw : rowMatches (encode i) opcodeTable[k] = true) (hb : opcodeTable[k].build (encode i) = i) :
    EncodesARow.Statement i := ⟨_, List.getElem_mem hk, hw, hb⟩

@[simp] theorem regIndex_inRange (x : RegIndex) : RegIndex.inRange x = true := by
  have := x.isLt; simp only [RegIndex.inRange, decide_eq_true_eq]; omega

@[simp] theorem byte_inRange (kk : Byte) : Byte.inRange kk = true := by
  have := kk.isLt; simp only [Byte.inRange, decide_eq_true_eq]; omega

@[simp] theorem addr12_inRange (nnn : Addr12) : Addr12.inRange nnn = true := by
  have := nnn.isLt; simp only [Addr12.inRange, decide_eq_true_eq]; omega

@[simp] theorem nibble_inRange (n : Nibble) : n.toNat ≤ 15 := by
  have := n.isLt; omega

/-! ### `FieldsInRange` -/

theorem FieldsInRange.clearDisplay : FieldsInRange.Statement .clearDisplay := rfl

theorem FieldsInRange.ret : FieldsInRange.Statement .ret := rfl

theorem FieldsInRange.jump (nnn : Addr12) : FieldsInRange.Statement (.jump nnn) := by
  simp [FieldsInRange.Statement, Instr.wf]

theorem FieldsInRange.call (nnn : Addr12) : FieldsInRange.Statement (.call nnn) := by
  simp [FieldsInRange.Statement, Instr.wf]

theorem FieldsInRange.skipEqualByte (x : RegIndex) (kk : Byte) : FieldsInRange.Statement (.skipEqualByte x kk) := by
  simp [FieldsInRange.Statement, Instr.wf]

theorem FieldsInRange.skipNotEqualByte (x : RegIndex) (kk : Byte) : FieldsInRange.Statement (.skipNotEqualByte x kk) := by
  simp [FieldsInRange.Statement, Instr.wf]

theorem FieldsInRange.skipEqualRegister (x y : RegIndex) : FieldsInRange.Statement (.skipEqualRegister x y) := by
  simp [FieldsInRange.Statement, Instr.wf]

theorem FieldsInRange.loadByte (x : RegIndex) (kk : Byte) : FieldsInRange.Statement (.loadByte x kk) := by
  simp [FieldsInRange.Statement, Instr.wf]

theorem FieldsInRange.addByte (x : RegIndex) (kk : Byte) : FieldsInRange.Statement (.addByte x kk) := by
  simp [FieldsInRange.Statement, Instr.wf]

theorem FieldsInRange.loadRegister (x y : RegIndex) : FieldsInRange.Statement (.loadRegister x y) := by
  simp [FieldsInRange.Statement, Instr.wf]

theorem FieldsInRange.or (x y : RegIndex) : FieldsInRange.Statement (.or x y) := by
  simp [FieldsInRange.Statement, Instr.wf]

theorem FieldsInRange.and (x y : RegIndex) : FieldsInRange.Statement (.and x y) := by
  simp [FieldsInRange.Statement, Instr.wf]

theorem FieldsInRange.xor (x y : RegIndex) : FieldsInRange.Statement (.xor x y) := by
  simp [FieldsInRange.Statement, Instr.wf]

theorem FieldsInRange.add (x y : RegIndex) : FieldsInRange.Statement (.add x y) := by
  simp [FieldsInRange.Statement, Instr.wf]

theorem FieldsInRange.subtract (x y : RegIndex) : FieldsInRange.Statement (.subtract x y) := by
  simp [FieldsInRange.Statement, Instr.wf]

theorem FieldsInRange.shiftRight (x y : RegIndex) : FieldsInRange.Statement (.shiftRight x y) := by
  simp [FieldsInRange.Statement, Instr.wf]

theorem FieldsInRange.subtractReverse (x y : RegIndex) : FieldsInRange.Statement (.subtractReverse x y) := by
  simp [FieldsInRange.Statement, Instr.wf]

theorem FieldsInRange.shiftLeft (x y : RegIndex) : FieldsInRange.Statement (.shiftLeft x y) := by
  simp [FieldsInRange.Statement, Instr.wf]

theorem FieldsInRange.skipNotEqualRegister (x y : RegIndex) : FieldsInRange.Statement (.skipNotEqualRegister x y) := by
  simp [FieldsInRange.Statement, Instr.wf]

theorem FieldsInRange.loadIndex (nnn : Addr12) : FieldsInRange.Statement (.loadIndex nnn) := by
  simp [FieldsInRange.Statement, Instr.wf]

theorem FieldsInRange.jumpWithOffset (nnn : Addr12) : FieldsInRange.Statement (.jumpWithOffset nnn) := by
  simp [FieldsInRange.Statement, Instr.wf]

theorem FieldsInRange.randomWithMask (x : RegIndex) (kk : Byte) : FieldsInRange.Statement (.randomWithMask x kk) := by
  simp [FieldsInRange.Statement, Instr.wf]

theorem FieldsInRange.draw (x y : RegIndex) (n : Nibble) : FieldsInRange.Statement (.draw x y n) := by
  simp [FieldsInRange.Statement, Instr.wf]

theorem FieldsInRange.skipIfPressed (x : RegIndex) : FieldsInRange.Statement (.skipIfPressed x) := by
  simp [FieldsInRange.Statement, Instr.wf]

theorem FieldsInRange.skipIfNotPressed (x : RegIndex) : FieldsInRange.Statement (.skipIfNotPressed x) := by
  simp [FieldsInRange.Statement, Instr.wf]

theorem FieldsInRange.loadDelayTimer (x : RegIndex) : FieldsInRange.Statement (.loadDelayTimer x) := by
  simp [FieldsInRange.Statement, Instr.wf]

theorem FieldsInRange.waitKeyPress (x : RegIndex) : FieldsInRange.Statement (.waitKeyPress x) := by
  simp [FieldsInRange.Statement, Instr.wf]

theorem FieldsInRange.storeDelayTimer (x : RegIndex) : FieldsInRange.Statement (.storeDelayTimer x) := by
  simp [FieldsInRange.Statement, Instr.wf]

theorem FieldsInRange.storeSoundTimer (x : RegIndex) : FieldsInRange.Statement (.storeSoundTimer x) := by
  simp [FieldsInRange.Statement, Instr.wf]

theorem FieldsInRange.addToIndex (x : RegIndex) : FieldsInRange.Statement (.addToIndex x) := by
  simp [FieldsInRange.Statement, Instr.wf]

theorem FieldsInRange.loadSprite (x : RegIndex) : FieldsInRange.Statement (.loadSprite x) := by
  simp [FieldsInRange.Statement, Instr.wf]

theorem FieldsInRange.storeBcd (x : RegIndex) : FieldsInRange.Statement (.storeBcd x) := by
  simp [FieldsInRange.Statement, Instr.wf]

theorem FieldsInRange.storeRegisters (x : RegIndex) : FieldsInRange.Statement (.storeRegisters x) := by
  simp [FieldsInRange.Statement, Instr.wf]

theorem FieldsInRange.loadRegisters (x : RegIndex) : FieldsInRange.Statement (.loadRegisters x) := by
  simp [FieldsInRange.Statement, Instr.wf]

/-! ### `EncodesARow` -/

theorem EncodesARow.clearDisplay : EncodesARow.Statement .clearDisplay :=
  EncodesARow.of_row _ 0 (by decide) (by decide) rfl

theorem EncodesARow.ret : EncodesARow.Statement .ret :=
  EncodesARow.of_row _ 1 (by decide) (by decide) rfl

theorem EncodesARow.jump (nnn : Addr12) : EncodesARow.Statement (.jump nnn) :=
  EncodesARow.of_row _ 2 (by decide) (beq_iff_eq.mpr (packNNN_mask _ nnn)) (congrArg Instr.jump (fieldNNN_packNNN _ nnn))

theorem EncodesARow.call (nnn : Addr12) : EncodesARow.Statement (.call nnn) :=
  EncodesARow.of_row _ 3 (by decide) (beq_iff_eq.mpr (packNNN_mask _ nnn)) (congrArg Instr.call (fieldNNN_packNNN _ nnn))

theorem EncodesARow.skipEqualByte (x : RegIndex) (kk : Byte) : EncodesARow.Statement (.skipEqualByte x kk) :=
  EncodesARow.of_row _ 4 (by decide) (beq_iff_eq.mpr (packXKK_mask_op _ x kk)) (congrArg₂ Instr.skipEqualByte (fieldX_packXKK _ x kk) (fieldKK_packXKK _ x kk))

theorem EncodesARow.skipNotEqualByte (x : RegIndex) (kk : Byte) : EncodesARow.Statement (.skipNotEqualByte x kk) :=
  EncodesARow.of_row _ 5 (by decide) (beq_iff_eq.mpr (packXKK_mask_op _ x kk)) (congrArg₂ Instr.skipNotEqualByte (fieldX_packXKK _ x kk) (fieldKK_packXKK _ x kk))

theorem EncodesARow.skipEqualRegister (x y : RegIndex) : EncodesARow.Statement (.skipEqualRegister x y) :=
  EncodesARow.of_row _ 6 (by decide) (beq_iff_eq.mpr (packXYN_mask _ x y _)) (congrArg₂ Instr.skipEqualRegister (fieldX_packXYN _ x y _) (fieldY_packXYN _ x y _))

theorem EncodesARow.loadByte (x : RegIndex) (kk : Byte) : EncodesARow.Statement (.loadByte x kk) :=
  EncodesARow.of_row _ 7 (by decide) (beq_iff_eq.mpr (packXKK_mask_op _ x kk)) (congrArg₂ Instr.loadByte (fieldX_packXKK _ x kk) (fieldKK_packXKK _ x kk))

theorem EncodesARow.addByte (x : RegIndex) (kk : Byte) : EncodesARow.Statement (.addByte x kk) :=
  EncodesARow.of_row _ 8 (by decide) (beq_iff_eq.mpr (packXKK_mask_op _ x kk)) (congrArg₂ Instr.addByte (fieldX_packXKK _ x kk) (fieldKK_packXKK _ x kk))

theorem EncodesARow.loadRegister (x y : RegIndex) : EncodesARow.Statement (.loadRegister x y) :=
  EncodesARow.of_row _ 9 (by decide) (beq_iff_eq.mpr (packXYN_mask _ x y _)) (congrArg₂ Instr.loadRegister (fieldX_packXYN _ x y _) (fieldY_packXYN _ x y _))

theorem EncodesARow.or (x y : RegIndex) : EncodesARow.Statement (.or x y) :=
  EncodesARow.of_row _ 10 (by decide) (beq_iff_eq.mpr (packXYN_mask _ x y _)) (congrArg₂ Instr.or (fieldX_packXYN _ x y _) (fieldY_packXYN _ x y _))

theorem EncodesARow.and (x y : RegIndex) : EncodesARow.Statement (.and x y) :=
  EncodesARow.of_row _ 11 (by decide) (beq_iff_eq.mpr (packXYN_mask _ x y _)) (congrArg₂ Instr.and (fieldX_packXYN _ x y _) (fieldY_packXYN _ x y _))

theorem EncodesARow.xor (x y : RegIndex) : EncodesARow.Statement (.xor x y) :=
  EncodesARow.of_row _ 12 (by decide) (beq_iff_eq.mpr (packXYN_mask _ x y _)) (congrArg₂ Instr.xor (fieldX_packXYN _ x y _) (fieldY_packXYN _ x y _))

theorem EncodesARow.add (x y : RegIndex) : EncodesARow.Statement (.add x y) :=
  EncodesARow.of_row _ 13 (by decide) (beq_iff_eq.mpr (packXYN_mask _ x y _)) (congrArg₂ Instr.add (fieldX_packXYN _ x y _) (fieldY_packXYN _ x y _))

theorem EncodesARow.subtract (x y : RegIndex) : EncodesARow.Statement (.subtract x y) :=
  EncodesARow.of_row _ 14 (by decide) (beq_iff_eq.mpr (packXYN_mask _ x y _)) (congrArg₂ Instr.subtract (fieldX_packXYN _ x y _) (fieldY_packXYN _ x y _))

theorem EncodesARow.shiftRight (x y : RegIndex) : EncodesARow.Statement (.shiftRight x y) :=
  EncodesARow.of_row _ 15 (by decide) (beq_iff_eq.mpr (packXYN_mask _ x y _)) (congrArg₂ Instr.shiftRight (fieldX_packXYN _ x y _) (fieldY_packXYN _ x y _))

theorem EncodesARow.subtractReverse (x y : RegIndex) : EncodesARow.Statement (.subtractReverse x y) :=
  EncodesARow.of_row _ 16 (by decide) (beq_iff_eq.mpr (packXYN_mask _ x y _)) (congrArg₂ Instr.subtractReverse (fieldX_packXYN _ x y _) (fieldY_packXYN _ x y _))

theorem EncodesARow.shiftLeft (x y : RegIndex) : EncodesARow.Statement (.shiftLeft x y) :=
  EncodesARow.of_row _ 17 (by decide) (beq_iff_eq.mpr (packXYN_mask _ x y _)) (congrArg₂ Instr.shiftLeft (fieldX_packXYN _ x y _) (fieldY_packXYN _ x y _))

theorem EncodesARow.skipNotEqualRegister (x y : RegIndex) : EncodesARow.Statement (.skipNotEqualRegister x y) :=
  EncodesARow.of_row _ 18 (by decide) (beq_iff_eq.mpr (packXYN_mask _ x y _)) (congrArg₂ Instr.skipNotEqualRegister (fieldX_packXYN _ x y _) (fieldY_packXYN _ x y _))

theorem EncodesARow.loadIndex (nnn : Addr12) : EncodesARow.Statement (.loadIndex nnn) :=
  EncodesARow.of_row _ 19 (by decide) (beq_iff_eq.mpr (packNNN_mask _ nnn)) (congrArg Instr.loadIndex (fieldNNN_packNNN _ nnn))

theorem EncodesARow.jumpWithOffset (nnn : Addr12) : EncodesARow.Statement (.jumpWithOffset nnn) :=
  EncodesARow.of_row _ 20 (by decide) (beq_iff_eq.mpr (packNNN_mask _ nnn)) (congrArg Instr.jumpWithOffset (fieldNNN_packNNN _ nnn))

theorem EncodesARow.randomWithMask (x : RegIndex) (kk : Byte) : EncodesARow.Statement (.randomWithMask x kk) :=
  EncodesARow.of_row _ 21 (by decide) (beq_iff_eq.mpr (packXKK_mask_op _ x kk)) (congrArg₂ Instr.randomWithMask (fieldX_packXKK _ x kk) (fieldKK_packXKK _ x kk))

theorem EncodesARow.draw (x y : RegIndex) (n : Nibble) : EncodesARow.Statement (.draw x y n) :=
  EncodesARow.of_row _ 22 (by decide) (beq_iff_eq.mpr (packXYN_mask_op _ x y n)) (by
    show Instr.draw _ _ _ = _
    rw [encode, fieldX_packXYN, fieldY_packXYN, fieldN_packXYN])

theorem EncodesARow.skipIfPressed (x : RegIndex) : EncodesARow.Statement (.skipIfPressed x) :=
  EncodesARow.of_row _ 23 (by decide) (beq_iff_eq.mpr (packXKK_mask _ x _)) (congrArg Instr.skipIfPressed (fieldX_packXKK _ x _))

theorem EncodesARow.skipIfNotPressed (x : RegIndex) : EncodesARow.Statement (.skipIfNotPressed x) :=
  EncodesARow.of_row _ 24 (by decide) (beq_iff_eq.mpr (packXKK_mask _ x _)) (congrArg Instr.skipIfNotPressed (fieldX_packXKK _ x _))

theorem EncodesARow.loadDelayTimer (x : RegIndex) : EncodesARow.Statement (.loadDelayTimer x) :=
  EncodesARow.of_row _ 25 (by decide) (beq_iff_eq.mpr (packXKK_mask _ x _)) (congrArg Instr.loadDelayTimer (fieldX_packXKK _ x _))

theorem EncodesARow.waitKeyPress (x : RegIndex) : EncodesARow.Statement (.waitKeyPress x) :=
  EncodesARow.of_row _ 26 (by decide) (beq_iff_eq.mpr (packXKK_mask _ x _)) (congrArg Instr.waitKeyPress (fieldX_packXKK _ x _))

theorem EncodesARow.storeDelayTimer (x : RegIndex) : EncodesARow.Statement (.storeDelayTimer x) :=
  EncodesARow.of_row _ 27 (by decide) (beq_iff_eq.mpr (packXKK_mask _ x _)) (congrArg Instr.storeDelayTimer (fieldX_packXKK _ x _))

theorem EncodesARow.storeSoundTimer (x : RegIndex) : EncodesARow.Statement (.storeSoundTimer x) :=
  EncodesARow.of_row _ 28 (by decide) (beq_iff_eq.mpr (packXKK_mask _ x _)) (congrArg Instr.storeSoundTimer (fieldX_packXKK _ x _))

theorem EncodesARow.addToIndex (x : RegIndex) : EncodesARow.Statement (.addToIndex x) :=
  EncodesARow.of_row _ 29 (by decide) (beq_iff_eq.mpr (packXKK_mask _ x _)) (congrArg Instr.addToIndex (fieldX_packXKK _ x _))

theorem EncodesARow.loadSprite (x : RegIndex) : EncodesARow.Statement (.loadSprite x) :=
  EncodesARow.of_row _ 30 (by decide) (beq_iff_eq.mpr (packXKK_mask _ x _)) (congrArg Instr.loadSprite (fieldX_packXKK _ x _))

theorem EncodesARow.storeBcd (x : RegIndex) : EncodesARow.Statement (.storeBcd x) :=
  EncodesARow.of_row _ 31 (by decide) (beq_iff_eq.mpr (packXKK_mask _ x _)) (congrArg Instr.storeBcd (fieldX_packXKK _ x _))

theorem EncodesARow.storeRegisters (x : RegIndex) : EncodesARow.Statement (.storeRegisters x) :=
  EncodesARow.of_row _ 32 (by decide) (beq_iff_eq.mpr (packXKK_mask _ x _)) (congrArg Instr.storeRegisters (fieldX_packXKK _ x _))

theorem EncodesARow.loadRegisters (x : RegIndex) : EncodesARow.Statement (.loadRegisters x) :=
  EncodesARow.of_row _ 33 (by decide) (beq_iff_eq.mpr (packXKK_mask _ x _)) (congrArg Instr.loadRegisters (fieldX_packXKK _ x _))

/-! ### For all instructions -/

/-- Every instruction is well formed: the check cannot fail (R102). -/
theorem fieldsInRange (i : Instr) : FieldsInRange.Statement i := by
  cases i <;> simp [FieldsInRange.Statement, Instr.wf]

/-- Every instruction's word selects its row. -/
theorem encodesARow (i : Instr) : EncodesARow.Statement i := by
  cases i
  case clearDisplay => exact EncodesARow.clearDisplay
  case ret => exact EncodesARow.ret
  case jump nnn => exact EncodesARow.jump nnn
  case call nnn => exact EncodesARow.call nnn
  case skipEqualByte x kk => exact EncodesARow.skipEqualByte x kk
  case skipNotEqualByte x kk => exact EncodesARow.skipNotEqualByte x kk
  case skipEqualRegister x y => exact EncodesARow.skipEqualRegister x y
  case loadByte x kk => exact EncodesARow.loadByte x kk
  case addByte x kk => exact EncodesARow.addByte x kk
  case loadRegister x y => exact EncodesARow.loadRegister x y
  case or x y => exact EncodesARow.or x y
  case and x y => exact EncodesARow.and x y
  case xor x y => exact EncodesARow.xor x y
  case add x y => exact EncodesARow.add x y
  case subtract x y => exact EncodesARow.subtract x y
  case shiftRight x y => exact EncodesARow.shiftRight x y
  case subtractReverse x y => exact EncodesARow.subtractReverse x y
  case shiftLeft x y => exact EncodesARow.shiftLeft x y
  case skipNotEqualRegister x y => exact EncodesARow.skipNotEqualRegister x y
  case loadIndex nnn => exact EncodesARow.loadIndex nnn
  case jumpWithOffset nnn => exact EncodesARow.jumpWithOffset nnn
  case randomWithMask x kk => exact EncodesARow.randomWithMask x kk
  case draw x y n => exact EncodesARow.draw x y n
  case skipIfPressed x => exact EncodesARow.skipIfPressed x
  case skipIfNotPressed x => exact EncodesARow.skipIfNotPressed x
  case loadDelayTimer x => exact EncodesARow.loadDelayTimer x
  case waitKeyPress x => exact EncodesARow.waitKeyPress x
  case storeDelayTimer x => exact EncodesARow.storeDelayTimer x
  case storeSoundTimer x => exact EncodesARow.storeSoundTimer x
  case addToIndex x => exact EncodesARow.addToIndex x
  case loadSprite x => exact EncodesARow.loadSprite x
  case storeBcd x => exact EncodesARow.storeBcd x
  case storeRegisters x => exact EncodesARow.storeRegisters x
  case loadRegisters x => exact EncodesARow.loadRegisters x

end Sys2Proof.Laws
end

