-- ==== Sys2Proof/Tests/Slice0.lean ====
section
/-! SUPPORT. Tests, each decided by the kernel's evaluation. Expected results are the vectors of 95_test_vectors.md and the examples of
the instruction rules; then, for each obligation with hypotheses, a witness that meets them. -/

namespace Sys2Proof.Tests

open Sys2Proof Sys2Proof.Machine

/-! ### Well-formedness

No term of `Instr` is ill formed: every field has its own width (30_encoding.md R102). The one check that can fail is the parameters'
(00_scope.md R7: `FONT_BASE + 80 <= 0x200`). -/

theorem test_wf_refuses_high_font : ({ fontBase := 0x1B1 } : Config.Params).wf = false := by decide
theorem test_wf_accepts_highest_font : ({ fontBase := 0x1B0 } : Config.Params).wf = true := by decide
theorem test_wf_accepts_instruction_extremes :
    (Instr.draw 0xF 0xF 0xF).wf = true ∧ (Instr.jump 0xFFF).wf = true ∧ (Instr.loadByte 0xF 0xFF).wf = true := by decide

/-! ### Decoding: each row of 30_encoding.md R110, its word written from the row's pattern (and R115, 95 section 2.1) -/

theorem test_decode_control :
    decodeTableWord 16 0x00E0 = some .clearDisplay ∧ decodeTableWord 16 0x00EE = some .ret ∧
    decodeTableWord 16 0x1ABC = some (.jump 0xABC) ∧ decodeTableWord 16 0x2FFF = some (.call 0xFFF) := by decide

theorem test_decode_skips :
    decodeTableWord 16 0x3A00 = some (.skipEqualByte 0xA 0x00) ∧ decodeTableWord 16 0x4342 = some (.skipNotEqualByte 0x3 0x42) ∧
    decodeTableWord 16 0x5AB0 = some (.skipEqualRegister 0xA 0xB) ∧
    decodeTableWord 16 0x9AB0 = some (.skipNotEqualRegister 0xA 0xB) := by decide

theorem test_decode_loads_and_logic :
    decodeTableWord 16 0x6005 = some (.loadByte 0x0 0x05) ∧ decodeTableWord 16 0x7AFF = some (.addByte 0xA 0xFF) ∧
    decodeTableWord 16 0x8AB0 = some (.loadRegister 0xA 0xB) ∧ decodeTableWord 16 0x8AB1 = some (.or 0xA 0xB) ∧
    decodeTableWord 16 0x8AB2 = some (.and 0xA 0xB) ∧ decodeTableWord 16 0x8AB3 = some (.xor 0xA 0xB) := by decide

theorem test_decode_arithmetic :
    decodeTableWord 16 0x8014 = some (.add 0x0 0x1) ∧ decodeTableWord 16 0x8AB5 = some (.subtract 0xA 0xB) ∧
    decodeTableWord 16 0x8AB6 = some (.shiftRight 0xA 0xB) ∧ decodeTableWord 16 0x8AB7 = some (.subtractReverse 0xA 0xB) ∧
    decodeTableWord 16 0x8ABE = some (.shiftLeft 0xA 0xB) := by decide

theorem test_decode_index_random_draw :
    decodeTableWord 16 0xA123 = some (.loadIndex 0x123) ∧ decodeTableWord 16 0xB123 = some (.jumpWithOffset 0x123) ∧
    decodeTableWord 16 0xC30F = some (.randomWithMask 0x3 0x0F) ∧ decodeTableWord 16 0xD123 = some (.draw 0x1 0x2 0x3) := by decide

theorem test_decode_keys_and_timers :
    decodeTableWord 16 0xE29E = some (.skipIfPressed 0x2) ∧ decodeTableWord 16 0xE0A1 = some (.skipIfNotPressed 0x0) ∧
    decodeTableWord 16 0xF107 = some (.loadDelayTimer 0x1) ∧ decodeTableWord 16 0xF30A = some (.waitKeyPress 0x3) ∧
    decodeTableWord 16 0xF115 = some (.storeDelayTimer 0x1) ∧ decodeTableWord 16 0xF218 = some (.storeSoundTimer 0x2) := by decide

theorem test_decode_transfer :
    decodeTableWord 16 0xF21E = some (.addToIndex 0x2) ∧ decodeTableWord 16 0xF429 = some (.loadSprite 0x4) ∧
    decodeTableWord 16 0xFF33 = some (.storeBcd 0xF) ∧ decodeTableWord 16 0xF255 = some (.storeRegisters 0x2) ∧
    decodeTableWord 16 0xFF65 = some (.loadRegisters 0xF) := by decide

/-- Words outside R110 carry their own value (95 section 2.1). -/
theorem test_decode_invalid :
    decode .invalid 0x0000 = .invalid 0x0000 ∧ decode .invalid 0x00E1 = .invalid 0x00E1 ∧ decode .invalid 0x01E0 = .invalid 0x01E0 ∧
    decode .invalid 0x0FFF = .invalid 0x0FFF ∧ decode .invalid 0x5AB1 = .invalid 0x5AB1 ∧ decode .invalid 0x8AB8 = .invalid 0x8AB8 ∧
    decode .invalid 0x8ABF = .invalid 0x8ABF ∧ decode .invalid 0x9ABF = .invalid 0x9ABF ∧ decode .invalid 0xE09F = .invalid 0xE09F ∧
    decode .invalid 0xF01F = .invalid 0xF01F ∧ decode .invalid 0xF075 = .invalid 0xF075 ∧ decode .invalid 0xFFFF = .invalid 0xFFFF := by decide

/-- SYS_0NNN = Nop (R112, 95 section 2.1). -/
theorem test_decode_nop :
    decode .nop 0x0000 = .sysCall 0x000 ∧ decode .nop 0x00E1 = .sysCall 0x0E1 ∧ decode .nop 0x0FFF = .sysCall 0xFFF ∧
    decode .nop 0x00E0 = .instr .clearDisplay ∧ decode .nop 0x5AB1 = .invalid 0x5AB1 := by decide

/-! ### One step: helpers -/

/-- The reset state with registers set. -/
def withRegs (l : List (RegIndex × Byte)) : State := l.foldl (fun s p => s.setReg p.1 p.2) State.reset

/-- A state with other parameters. -/
def withParams (p : Config.Params) (s : State) : State := { s with params := p }

/-- A state with a pixel lit. -/
def lit (r c : Nat) (s : State) : State := s.setDisplay (Display.put s.disp r c true)

/-- The state with the word placed at `pc`. -/
def placed (w : Word) (s : State) : State := s.withFetchWord 16 w.toNat

/-- One step from the state with the word at `pc` answers a next state with the property. -/
def runs (w : Word) (s : State) (p : State → Bool) : Bool :=
  match step (placed w s) with
  | .next t => p t
  | .fault _ => false
  | .refused _ => false

/-- One step answers the state it started from, halted, with nothing else changed (60_exceptions.md R262). -/
def halts (w : Word) (s : State) (e : HaltReason) : Bool :=
  runs w s fun t => decide (t = { placed w s with status := .halted e })

/-! ### Control transfer (95 section 2.2) -/

theorem test_jump : runs 0x1234 State.reset (fun t => t.pc = 0x234) = true := by decide
theorem test_call : runs 0x2300 State.reset (fun t => t.stackAt 0 = 0x202 ∧ t.sp = 1 ∧ t.pc = 0x300) = true := by decide
theorem test_call_full : halts 0x2400 { State.reset with sp := 16 } .stackOverflow = true := by decide
theorem test_return :
    runs 0x00EE (State.reset.push 0x202) (fun t => t.sp = 0 ∧ t.pc = 0x202 ∧ t.stackAt 0 = 0x202) = true := by decide
theorem test_return_empty : halts 0x00EE State.reset .stackUnderflow = true := by decide

/-! ### Skips (95 section 2.3) -/

theorem test_skip_equal_byte :
    runs 0x3342 (withRegs [(3, 0x42)]) (fun t => t.pc = 0x204) = true ∧
    runs 0x3342 (withRegs [(3, 0x41)]) (fun t => t.pc = 0x202) = true := by decide
theorem test_skip_not_equal_byte :
    runs 0x4342 (withRegs [(3, 0x41)]) (fun t => t.pc = 0x204) = true ∧
    runs 0x4342 (withRegs [(3, 0x42)]) (fun t => t.pc = 0x202) = true := by decide
theorem test_skip_equal_register :
    runs 0x5120 (withRegs [(1, 7), (2, 7)]) (fun t => t.pc = 0x204) = true ∧
    runs 0x5120 (withRegs [(1, 7), (2, 8)]) (fun t => t.pc = 0x202) = true := by decide
theorem test_skip_not_equal_register :
    runs 0x9120 (withRegs [(1, 7), (2, 8)]) (fun t => t.pc = 0x204) = true ∧
    runs 0x9120 (withRegs [(1, 7), (2, 7)]) (fun t => t.pc = 0x202) = true := by decide

/-! ### Loads and the ALU (95 section 2.4) -/

theorem test_load_byte :
    runs 0x6A42 (withRegs [(0xF, 0x55)]) (fun t => t.reg 0xA = 0x42 ∧ t.reg 0xF = 0x55 ∧ t.pc = 0x202) = true := by decide
theorem test_add_byte_has_no_flag :
    runs 0x7A01 (withRegs [(0xA, 0xFF), (0xF, 0x55)]) (fun t => t.reg 0xA = 0 ∧ t.reg 0xF = 0x55) = true := by decide
theorem test_load_register :
    runs 0x8010 (withRegs [(1, 0x33), (0xF, 1)]) (fun t => t.reg 0 = 0x33 ∧ t.reg 0xF = 1) = true := by decide
theorem test_or :
    runs 0x8011 (withRegs [(0, 0x0F), (1, 0xF0), (0xF, 1)]) (fun t => t.reg 0 = 0xFF ∧ t.reg 0xF = 1) = true := by decide
theorem test_or_resets_flag :
    runs 0x8011 (withParams { logicResetsVF := true } (withRegs [(0, 0x0F), (1, 0xF0), (0xF, 1)]))
      (fun t => t.reg 0 = 0xFF ∧ t.reg 0xF = 0) = true := by decide
theorem test_and :
    runs 0x8012 (withRegs [(0, 0x3C), (1, 0x0F), (0xF, 1)]) (fun t => t.reg 0 = 0x0C ∧ t.reg 0xF = 1) = true := by decide
theorem test_xor :
    runs 0x8013 (withRegs [(0, 0x3C), (1, 0x0F), (0xF, 1)]) (fun t => t.reg 0 = 0x33 ∧ t.reg 0xF = 1) = true := by decide
theorem test_xor_into_flag :
    runs 0x8F13 (withParams { logicResetsVF := true } (withRegs [(0xF, 0x0F), (1, 0xF0)])) (fun t => t.reg 0xF = 0) = true := by
  decide
theorem test_add_carry :
    runs 0x8014 (withRegs [(0, 0xFF), (1, 1)]) (fun t => t.reg 0 = 0 ∧ t.reg 0xF = 1) = true ∧
    runs 0x8014 (withRegs [(0, 0x7F), (1, 1), (0xF, 1)]) (fun t => t.reg 0 = 0x80 ∧ t.reg 0xF = 0) = true := by decide
theorem test_add_flag_register :
    runs 0x8F14 (withRegs [(0xF, 0xFF), (1, 2)]) (fun t => t.reg 0xF = 1) = true ∧
    runs 0x80F4 (withRegs [(0, 0x10), (0xF, 1)]) (fun t => t.reg 0 = 0x11 ∧ t.reg 0xF = 0) = true := by decide
theorem test_subtract :
    runs 0x8015 (withRegs [(0, 3), (1, 3)]) (fun t => t.reg 0 = 0 ∧ t.reg 0xF = 1) = true ∧
    runs 0x8015 (withRegs [(0, 3), (1, 5), (0xF, 1)]) (fun t => t.reg 0 = 0xFE ∧ t.reg 0xF = 0) = true := by decide
theorem test_subtract_into_flag : runs 0x8F15 (withRegs [(0xF, 1), (1, 2)]) (fun t => t.reg 0xF = 0) = true := by decide
theorem test_subtract_reverse :
    runs 0x8017 (withRegs [(0, 3), (1, 5)]) (fun t => t.reg 0 = 2 ∧ t.reg 0xF = 1) = true ∧
    runs 0x8017 (withRegs [(0, 1), (1, 0), (0xF, 1)]) (fun t => t.reg 0 = 0xFF ∧ t.reg 0xF = 0) = true := by decide
theorem test_shift_right :
    runs 0x80E6 (withRegs [(0, 4), (0xE, 0xFF)]) (fun t => t.reg 0 = 2 ∧ t.reg 0xF = 0) = true ∧
    runs 0x8F06 (withRegs [(0xF, 3)]) (fun t => t.reg 0xF = 1) = true := by decide
theorem test_shift_left :
    runs 0x800E (withRegs [(0, 0x81)]) (fun t => t.reg 0 = 2 ∧ t.reg 0xF = 1) = true ∧
    runs 0x800E (withRegs [(0, 0x7F), (0xF, 1)]) (fun t => t.reg 0 = 0xFE ∧ t.reg 0xF = 0) = true := by decide

/-! ### Index, jump with offset, random (95 section 2.5) -/

theorem test_load_index : runs 0xA123 State.reset (fun t => t.i = 0x0123 ∧ t.pc = 0x202) = true := by decide
theorem test_add_to_index :
    runs 0xF21E ((withRegs [(2, 1), (0xF, 0x55)]).setIndex 0xFFFF) (fun t => t.i = 0 ∧ t.reg 0xF = 0x55) = true ∧
    runs 0xF21E ((withRegs [(2, 1)]).setIndex 0x0FFF) (fun t => t.i = 0x1000) = true := by decide
theorem test_jump_with_offset :
    runs 0xB300 (withRegs [(0, 4)]) (fun t => t.pc = 0x304) = true ∧
    runs 0xBFFF (withRegs [(0, 0xFF)]) (fun t => t.pc = 0x10FE) = true := by decide
theorem test_random_mask :
    (randomWithMask 0xB7 3 0x0F State.reset).reg 3 = 0x07 ∧ (randomWithMask 0x5A 0xF 0xF0 State.reset).reg 0xF = 0x50 := by decide
/-- `kk` = 0 gives 0 whatever the free byte is (43_index_random.md R193). -/
theorem test_random_zero_mask : ∀ r : Byte, (randomWithMask r 3 0 State.reset).reg 3 = 0 := by decide

/-! ### Display (95 section 2.6) -/

/-- `Mem[0x300] = b`, `I = 0x300`, V0 and V1 set. -/
def sprite (bs : List Byte) (x y : Byte) : State := ((withRegs [(0, x), (1, y)]).storeBytes 0x300 bs).setIndex 0x300

theorem test_draw_twice :
    runs 0xD011 (sprite [0x80] 0 0) (fun t => t.pixel 0 0 = true ∧ t.reg 0xF = 0) = true ∧
    runs 0xD011 (lit 0 0 (sprite [0x80] 0 0)) (fun t => t.pixel 0 0 = false ∧ t.reg 0xF = 1) = true := by decide
/-- A draw that only turns pixels on reports 0 (R201, R202 point 3), though it is the second of two draws of one sprite, the first of
which cleared a lit pixel: the case that the wording of R202 point 1 leaves out (log 12). -/
theorem test_draw_twice_on_lit_pixel :
    runs 0xD011 (lit 0 0 (sprite [0x80] 0 0)) (fun t => t.reg 0xF = 1 ∧
      runs 0xD011 { t with pc := 0x200 } (fun u => u.pixel 0 0 = true ∧ u.reg 0xF = 0)) = true := by decide
theorem test_draw_wraps :
    runs 0xD011 (sprite [0xC3] 62 0) (fun t => t.pixel 0 62 ∧ t.pixel 0 63 ∧ t.pixel 0 4 ∧ t.pixel 0 5 ∧ ¬ t.pixel 0 0) = true ∧
    runs 0xD012 (lit 0 0 (sprite [0x80, 0x80] 0 31)) (fun t => t.pixel 31 0 ∧ ¬ t.pixel 0 0 ∧ t.reg 0xF = 1) = true := by decide
theorem test_draw_clips :
    runs 0xD012 (withParams { drawClip := true } (lit 0 0 (sprite [0x80, 0x80] 0 31)))
      (fun t => t.pixel 31 0 ∧ t.pixel 0 0 ∧ t.reg 0xF = 0) = true := by decide
theorem test_draw_start_wraps :
    runs 0xD011 (sprite [0x80] 65 33) (fun t => t.pixel 1 1 ∧ ¬ t.pixel 1 0) = true ∧
    runs 0xDF01 ((sprite [0x80] 0 0).setReg 0xF 5) (fun t => t.pixel 0 5 ∧ t.reg 0xF = 0) = true := by decide
theorem test_draw_out_of_range :
    halts 0xD125 (State.reset.setIndex 0x0FFC) (.addressOutOfRange 0x1000) = true ∧
    halts 0xD121 (State.reset.setIndex 0xFFFF) (.addressOutOfRange 0xFFFF) = true := by decide
theorem test_draw_no_rows :
    runs 0xD010 ((withRegs [(0xF, 1)]).setIndex 0xFFFF) (fun t => t.reg 0xF = 0 ∧ t.status = .running ∧ t.disp = State.reset.disp) =
      true := by decide
theorem test_clear_display :
    runs 0x00E0 (lit 3 4 (withRegs [(0xF, 7)])) (fun t => t.disp = State.reset.disp ∧ t.reg 0xF = 7 ∧ t.pc = 0x202) = true := by
  decide

/-! ### Keys, wait, timers (95 section 2.7) -/

theorem test_skip_if_pressed :
    runs 0xE59E ((withRegs [(5, 0x0A)]).setKey 0xA true) (fun t => t.pc = 0x204) = true ∧
    halts 0xE59E (withRegs [(5, 0x10)]) (.keyIndexOutOfRange 0x10) = true := by decide
theorem test_skip_if_not_pressed :
    runs 0xE5A1 ((withRegs [(5, 0x0A)]).setKey 0xA true) (fun t => t.pc = 0x202) = true ∧
    runs 0xE5A1 (withRegs [(5, 0x0A)]) (fun t => t.pc = 0x204) = true := by decide
theorem test_wait :
    runs 0xF30A State.reset (fun t => t.pc = 0x200 ∧ t.reg 3 = 0) = true ∧
    runs 0xF30A (State.reset.setKey 7 true) (fun t => t.pc = 0x202 ∧ t.reg 3 = 7 ∧ t.prevKey 7) = true := by decide
theorem test_wait_trigger :
    runs 0xF30A (State.reset.setKey 5 true).sampleKeys (fun t => t.pc = 0x200) = true ∧
    runs 0xF30A (withParams { waitTrigger := .level } (State.reset.setKey 5 true).sampleKeys)
      (fun t => t.pc = 0x202 ∧ t.reg 3 = 5) = true := by decide
/-- Two candidates: one of them, as the choice falls. -/
theorem test_wait_several :
    (waitKeyPress 6 3 ((State.reset.setKey 2 true).setKey 9 true)).reg 3 = 2 ∧
    (waitKeyPress 7 3 ((State.reset.setKey 2 true).setKey 9 true)).reg 3 = 9 := by decide
theorem test_load_delay_timer : runs 0xF107 (State.reset.setDelay 0x3C) (fun t => t.reg 1 = 0x3C) = true := by decide
theorem test_store_delay_timer : runs 0xF115 (withRegs [(1, 0x3C)]) (fun t => t.dt = 0x3C) = true := by decide
theorem test_store_sound_timer :
    runs 0xF218 (withRegs [(2, 5)]) (fun t => t.st = 5 ∧ t.soundActive) = true ∧
    runs 0xF218 (State.reset.setSound 5) (fun t => t.st = 0 ∧ ¬ t.soundActive) = true := by decide
theorem test_clock_tick :
    ((State.reset.setDelay 0xFF).setSound 1).clockTick = State.reset.setDelay 0xFE ∧
    (((State.reset.setDelay 3).halt (.invalidOpcode 0)).clockTick) = (State.reset.setDelay 2).halt (.invalidOpcode 0) := by decide

/-! ### Font, BCD, bulk transfer (95 section 2.8) -/

theorem test_load_sprite :
    runs 0xF429 (withRegs [(4, 0x1A)]) (fun t => t.i = 0x032) = true ∧
    runs 0xF429 (withParams { fontBase := 0x050 } (withRegs [(4, 0x0A)]))
      (fun t => t.i = 0x082 ∧ (List.range 5).map (fun k => t.readByte (0x082 + k)) = [0xF0, 0x90, 0xF0, 0x90, 0x90]) = true := by
  decide
theorem test_store_bcd :
    runs 0xF033 ((withRegs [(0, 254)]).setIndex 0x300)
      (fun t => t.readByte 0x300 = 2 ∧ t.readByte 0x301 = 5 ∧ t.readByte 0x302 = 4 ∧ t.i = 0x300) = true ∧
    halts 0xF033 (State.reset.setIndex 0x0FFE) (.addressOutOfRange 0x1000) = true := by decide
theorem test_store_registers :
    runs 0xF255 ((withRegs [(0, 1), (1, 2), (2, 3), (3, 4)]).setIndex 0x300)
      (fun t => (List.range 4).map (fun k => t.readByte (0x300 + k)) = [1, 2, 3, 0] ∧ t.i = 0x300) = true ∧
    halts 0xFF55 (State.reset.setIndex 0x0FF1) (.addressOutOfRange 0x1000) = true := by decide
theorem test_store_registers_increments :
    runs 0xF255 (withParams { loadStoreIncrementsI := true } (State.reset.setIndex 0x300)) (fun t => t.i = 0x303) = true := by decide
theorem test_load_registers :
    runs 0xF265 (((withRegs [(3, 0x77)]).storeBytes 0x300 [2, 5, 4, 9]).setIndex 0x300)
      (fun t => t.reg 0 = 2 ∧ t.reg 1 = 5 ∧ t.reg 2 = 4 ∧ t.reg 3 = 0x77 ∧ t.i = 0x300) = true ∧
    halts 0xFF65 (State.reset.setIndex 0x0FF1) (.addressOutOfRange 0x1000) = true := by decide
theorem test_load_registers_increments :
    runs 0xF065 (withParams { loadStoreIncrementsI := true } ((State.reset.storeBytes 0xFFF [0x42]).setIndex 0xFFF))
      (fun t => t.reg 0 = 0x42 ∧ t.i = 0x1000 ∧ t.status = .running) = true := by decide

/-! ### Fetch, faults, SysCall, reset, ROM, outputs (95 section 2.9) -/

theorem test_empty_rom_halts :
    step (launched []) = .next ((launched []).halt (.invalidOpcode 0)) := by rfl
theorem test_fetch_past_end :
    step { State.reset with pc := 0xFFF } = .next { State.reset with pc := 0xFFF, status := .halted (.addressOutOfRange 0xFFF) } := by
  rfl
theorem test_fetch_at_end : runs 0x1200 { State.reset with pc := 0xFFE } (fun t => t.pc = 0x200) = true := by decide
theorem test_fetch_odd : runs 0x6007 { State.reset with pc := 0x201 } (fun t => t.reg 0 = 7 ∧ t.pc = 0x203) = true := by decide
/-- SysCall under SYS_0NNN = Nop (30_encoding.md R112). -/
theorem test_sys_call_is_a_nop :
    runs 0x0123 (withParams { sys0nnn := .nop } State.reset) (fun t => t.pc = 0x202 ∧ t.status = .running) = true ∧
    halts 0x0123 State.reset (.invalidOpcode 0x0123) = true := by decide
theorem test_load_rom :
    (launched [0x60, 0x05, 0x61]).readByte 0x200 = 0x60 ∧ (launched [0x60, 0x05, 0x61]).readByte 0x202 = 0x61 ∧
    (launched [0x60, 0x05, 0x61]).readByte 0x203 = 0 := by decide
/-- Canonical form: writing back what reset left removes the entry (log 7). -/
theorem test_memory_is_canonical :
    (((State.reset.storeBytes 0x300 [7]).storeBytes 0x002 [1]).storeBytes 0x300 [0]).mem = [(0x002, 1)] := by decide
/-- The first row of the dump after Reset (95 section 2.9). -/
theorem test_dump_row :
    State.reset.dumpRow 0 = "0000: F0 90 90 90 F0 20 60 20 20 70 F0 10 F0 80 F0 F0" := by decide
/-- A pending operation is performed, then Cycles follow (log 5). -/
theorem test_pending_clock_tick :
    step { State.reset with dt := 2, driver := [.clockTick, .cycle] } = .next { State.reset with dt := 1, driver := [.cycle] } := by
  rfl

/-! ### Witnesses: for each obligation with hypotheses, a state and operands that meet them, clause by clause -/

theorem witness_DecodeAndEncodeAgree :
    (Instr.shiftRight 0xF 0xF).wf = true ∧ decode .invalid 0x8AB6 = .instr (.shiftRight 0xA 0xB) ∧
    opcodeTable.any (fun r => (0x8AB6 : Word) &&& r.mask == r.value) = true := by decide

theorem witness_DecodeFollowsTheDispatch : DispatchesTo 0x9FF0 ∧ ¬ DispatchesTo 0x9FF1 := by
  unfold DispatchesTo; decide

/-- A machine with SYS_0NNN = Nop at a 0nnn word. -/
def sysState : State := placed 0x0FFF (withParams { sys0nnn := .nop } { State.reset with pc := 0xFFE })

theorem witness_SysWordsFollowTheParameter :
    (fieldOp 0x0FFF = 0x0 ∧ (0x0FFF : Word) ≠ 0x00E0 ∧ (0x0FFF : Word) ≠ 0x00EE) ∧ fieldOp 0x1000 ≠ 0x0 ∧
    sysState.Ready ∧ sysState.pc.toNat < 0xFFF ∧
    decode sysState.params.sys0nnn (sysState.wordAt sysState.pc.toNat) = .sysCall 0xFFF := by decide

theorem witness_FetchIsBigEndianAndBounded :
    ({ State.reset with pc := 0xFFE } : State).pc.toNat < 0xFFF ∧ 0xFFF ≤ ({ State.reset with pc := 0xFFF } : State).pc.toNat := by
  decide

/-- A Return with `sp` = 17, the one stop of the model (log 8). -/
def overState : State := placed 0x00EE { State.reset with sp := 17 }

theorem witness_StepRunsTheDecodedInstruction :
    (State.reset.halt .stackOverflow).driver = [] ∧ (State.reset.halt .stackOverflow).status = .halted .stackOverflow ∧
    0xFFF ≤ ({ State.reset with pc := 0xFFF } : State).pc.toNat ∧
    decode .invalid (State.reset.wordAt State.reset.pc.toNat) = .invalid 0 ∧
    (∃ t, decode .invalid ((placed 0x6005 State.reset).wordAt 0x200) = .instr (.loadByte 0 5) ∧
      exec (.loadByte 0 5) (placed 0x6005 State.reset) = .next t ∧ t.status = .running) ∧
    (∃ t, exec .ret (placed 0x00EE State.reset) = .next t ∧ t.status = .halted .stackUnderflow) ∧
    decode .invalid (overState.wordAt overState.pc.toNat) = .instr .ret ∧
    exec .ret overState = .fault .stackPointerOutOfRange :=
  ⟨rfl, rfl, by decide, by decide, ⟨_, by decide, rfl, rfl⟩, ⟨_, rfl, rfl⟩, by decide, rfl⟩

theorem witness_FaultsArePrecise :
    ∃ t, (placed 0x00EE State.reset).Ready ∧ step (placed 0x00EE State.reset) = .next t ∧ t.status = .halted .stackUnderflow :=
  ⟨_, by decide, rfl, rfl⟩

theorem witness_HaltedIsLeftOnlyByReset :
    ∃ t, (∀ op ∈ [DriverOp.cycle, .clockTick, .setKey 3 true], op = .cycle ∨ op = .clockTick ∨ ∃ k b, op = .setKey k b) ∧
      core.run 3 { State.reset with status := .halted .stackUnderflow, driver := [.cycle, .clockTick, .setKey 3 true] } = .next t :=
  ⟨_, by simp, rfl⟩

theorem witness_LoadRom :
    (List.replicate 3584 (0xFF : Byte)).length ≤ 3584 ∧ 3584 < (List.replicate 3585 (0xFF : Byte)).length := by
  simp only [List.length_replicate]; decide

/-- For LoadRomCopiesOrHalts and LaunchStateHoldsFontAndRom: a byte inside and the bytes just outside a one-byte ROM. -/
theorem witness_rom_ranges :
    (0 : Nat) < ([0x12] : List Byte).length ∧ (0x1FF : Nat) < 0x200 ∧ 0x200 + ([0x12] : List Byte).length ≤ 0x201 := by decide

/-- For ResetGivesEveryElementItsValue: the bytes on either side of the font. -/
theorem witness_font_ranges :
    (0x04F : Nat) < (0x050 : Addr12).toNat ∧ (0x050 : Addr12).toNat + 80 ≤ 0x0A0 := by decide

/-- For the statements about any instruction that answers a next state. -/
theorem witness_exec_next : ∃ t, exec (.loadByte 0xF 7) State.reset = .next t ∧ t.reg 0xF ≠ State.reset.reg 0xF := ⟨_, rfl, by decide⟩

/-- For OnlyStoresWriteMemory: an instruction that is no store, and one that is. -/
theorem witness_OnlyStoresWriteMemory :
    (∀ x, (Instr.clearDisplay ≠ .storeBcd x ∧ Instr.clearDisplay ≠ .storeRegisters x)) ∧
    ∃ t, exec (.storeBcd 0) (withRegs [(0, 9)]) = .next t ∧ t.mem ≠ [] := ⟨by simp, _, rfl, by decide⟩

/-- For EachElementHasItsOwnWriters: each element is written by one of its writers. -/
theorem witness_EachElementHasItsOwnWriters :
    (∃ t, exec (.draw 0 0 1) State.reset = .next t ∧ t.disp ≠ State.reset.disp) ∧
    (∃ t, exec (.call 0) State.reset = .next t ∧ t.sp ≠ State.reset.sp ∧ t.stack ≠ State.reset.stack) ∧
    (∃ t, exec (.storeDelayTimer 0) (withRegs [(0, 1)]) = .next t ∧ t.dt ≠ 0) ∧
    (∃ t, exec (.storeSoundTimer 0) (withRegs [(0, 1)]) = .next t ∧ t.st ≠ 0) ∧
    (∃ t, exec (.storeRegisters 0) (withParams { loadStoreIncrementsI := true } State.reset) = .next t ∧ t.i ≠ 0) :=
  ⟨⟨_, rfl, by decide⟩, ⟨_, rfl, by decide, by decide⟩, ⟨_, rfl, by decide⟩, ⟨_, rfl, by decide⟩, ⟨_, rfl, by decide⟩⟩

theorem witness_RegistersHaveOnlyTheListedWriters :
    ∃ t, exec (.or 0 1) (withParams { logicResetsVF := true } (withRegs [(0xF, 1)])) = .next t ∧ t.reg 0xF ≠ 1 := ⟨_, rfl, by decide⟩

theorem witness_SoundTimerIsNeverRead :
    (∃ t, exec (.loadDelayTimer 0) State.reset = .next t) ∧ (∀ x, Instr.loadDelayTimer 0 ≠ .storeSoundTimer x) ∧
    exec .ret overState = .fault .stackPointerOutOfRange := ⟨⟨_, rfl⟩, by simp, rfl⟩

/-- A stack whose stale entries differ, under a Return and under a full stack. -/
theorem witness_StaleStackEntriesAreNeverRead :
    (State.reset.push 0x202).sp.toNat ≤ 16 ∧
    (∀ j : Fin 16, j.val < (State.reset.push 0x202).sp.toNat →
      ((Vector.replicate 16 (0xABC : Word)).set 0 0x202)[j] = (State.reset.push 0x202).stackAt j) ∧
    ∃ t, exec .ret (State.reset.push 0x202) = .next t := ⟨by decide, by decide, _, rfl⟩

theorem witness_EveryStepKeepsTheInvariant :
    ∃ t, (placed 0xF033 (withRegs [(0, 254)])).Inv ∧ step (placed 0xF033 (withRegs [(0, 254)])) = .next t := ⟨_, by decide, rfl⟩

theorem witness_ProgramCounterNeverWraps :
    ∃ t, ({ State.reset with pc := 0x10FE } : State).AddressInv ∧ step { State.reset with pc := 0x10FE } = .next t :=
  ⟨_, by decide, rfl⟩

theorem witness_OnlyReturnPastTheStackStops : ({ State.reset with sp := 16 } : State).sp.toNat ≤ 16 := by decide

/-- For OnlyTheListedInstructionsFault: each listed fault is raised. -/
theorem witness_OnlyTheListedInstructionsFault :
    exec (.call 0) { State.reset with sp := 16 } = .next (({ State.reset with sp := 16 } : State).halt .stackOverflow) ∧
    exec .ret State.reset = .next (State.reset.halt .stackUnderflow) ∧
    exec (.skipIfPressed 0) (withRegs [(0, 0x10)]) = .next ((withRegs [(0, 0x10)]).halt (.keyIndexOutOfRange 0x10)) ∧
    exec (.storeBcd 0) (State.reset.setIndex 0xFFE) = .next ((State.reset.setIndex 0xFFE).halt (.addressOutOfRange 0x1000)) :=
  ⟨rfl, rfl, rfl, rfl⟩

theorem witness_CanonicalMemoriesReadAlikeAreEqual :
    Memory.wf Config.defaultParams [(0x000, 0), (0xFFF, 7)] = true ∧
    ∀ a, Memory.read Config.defaultParams [(0x000, 0), (0xFFF, 7)] a = Memory.read Config.defaultParams [(0x000, 0), (0xFFF, 7)] a :=
  ⟨by decide, fun _ => rfl⟩

theorem witness_CallPushesTheReturnAddress :
    ({ State.reset with sp := 15 } : State).sp.toNat < 16 ∧ 16 ≤ ({ State.reset with sp := 16 } : State).sp.toNat := by decide

/-- For StackPointerFaultsAtItsBounds: both bounds, and a Call that moves `sp` to 16. -/
theorem witness_StackPointerFaultsAtItsBounds :
    ({ State.reset with sp := 16 } : State).sp.toNat = 16 ∧ State.reset.sp = 0 ∧
    ∃ t, ({ State.reset with sp := 15 } : State).sp.toNat ≤ 16 ∧ exec (.call 0) { State.reset with sp := 15 } = .next t ∧ t.sp = 16 :=
  ⟨by decide, rfl, _, by decide, rfl, rfl⟩

theorem witness_ReturnPopsIntoThePc :
    ({ State.reset with sp := 16 } : State).sp.toNat = (15 : Fin 16).val + 1 ∧ State.reset.sp = 0 := by decide

theorem witness_NestedCallsAndReturnsBalance :
    ([0x300, 0x400] : List Addr12) ≠ [] ∧ ({ State.reset with sp := 14 } : State).sp.toNat + ([0x300, 0x400] : List Addr12).length ≤ 16 := by
  decide

theorem witness_SeventeenthCallOverflows : (List.replicate 16 (0x200 : Addr12)).length = 16 ∧ State.reset.sp = 0 := by decide

theorem witness_KeySkipsReadTheKey :
    ((withRegs [(5, 0xF)]).reg 5).toNat = (0xF : KeyIndex).toNat ∧ 0xF < ((withRegs [(5, 0x10)]).reg 5).toNat := by decide

/-- For LogicFollowsTheFlagParameter: both values of the parameter; the operation is any of the three. -/
theorem witness_LogicFollowsTheFlagParameter :
    State.reset.params.logicResetsVF = false ∧
    (withParams { logicResetsVF := true } State.reset).params.logicResetsVF = true := by decide

theorem witness_WaitTakesACandidateKey :
    CandidateKey (State.reset.setKey 7 true) 7 ∧ ∀ k, ¬ CandidateKey State.reset k := by
  unfold CandidateKey; decide

/-- A key down and already sampled at a wait, with the word of the wait at `pc`. -/
def heldState : State := placed 0xF30A ((State.reset.setKey 5 true).sampleKeys)

theorem witness_HeldKeysEndNoEdgeWait :
    ∃ t, heldState.Ready ∧ heldState.params.waitTrigger = .edge ∧ step heldState = .next t ∧ t.status = .running ∧
      t.pc.toNat < 0xFFF ∧ decode t.params.sys0nnn (t.wordAt t.pc.toNat) = .instr (.waitKeyPress 3) :=
  ⟨_, by decide, rfl, rfl, rfl, by decide, by decide⟩

theorem witness_DrawTogglesThePixelsUnderTheSprite :
    (State.reset.setIndex 0xFFF).i.toNat + (1 : Nibble).toNat ≤ 0x1000 ∧ (0 : Nibble) = 0 ∧
    (∃ r c, Covers (sprite [0x80] 0 0) 0 0 1 r c) ∧ ∃ r c, ¬ Covers (sprite [0x80] 0 0) 0 0 1 r c := by
  refine ⟨by decide, rfl, ⟨0, 0, 0, by decide, 0, by decide, by decide, by decide, by decide, by decide⟩, 1, 0, ?_⟩
  rintro ⟨k, hk, j, hj, -, -, h, -⟩
  simp only [Fin.val_one] at h; omega

/-- For DrawingTwiceRestoresTheDisplay and SecondDrawAlwaysReportsACollision: on a clear display. -/
theorem witness_draw_twice :
    ∃ t u, (sprite [0x80] 0 0).i.toNat + (1 : Nibble).toNat ≤ 0x1000 ∧ exec (.draw 0 1 1) (sprite [0x80] 0 0) = .next t ∧
      t.reg 0 = (sprite [0x80] 0 0).reg 0 ∧ t.reg 1 = (sprite [0x80] 0 0).reg 1 ∧ exec (.draw 0 1 1) t = .next u ∧
      ∀ r c, Covers (sprite [0x80] 0 0) (((sprite [0x80] 0 0).reg 0).toNat % 64) (((sprite [0x80] 0 0).reg 1).toNat % 32)
        (1 : Nibble).toNat r c → (sprite [0x80] 0 0).pixel r c = false :=
  ⟨_, _, by decide, rfl, by decide, by decide, rfl, fun r c _ => by
    simp [State.pixel, sprite, withRegs, State.storeBytes, State.setIndex, State.setReg, State.reset, State.resetWith]⟩

/-- For OutOfRangeAccessFaultsFirst: the last legal and the first illegal I of each length; a draw of no rows at any I. -/
theorem witness_OutOfRangeAccessFaultsFirst :
    (State.reset.setIndex 0xFFD).i.toNat + 3 ≤ 0x1000 ∧ 0x1000 < (State.reset.setIndex 0xFFE).i.toNat + 3 ∧
    (State.reset.setIndex 0xFF0).i.toNat + ((0xF : RegIndex).toNat + 1) ≤ 0x1000 ∧
    0x1000 < (State.reset.setIndex 0xFF1).i.toNat + ((0xF : RegIndex).toNat + 1) ∧ (0 : Nibble).toNat = 0 := by decide

theorem witness_StoreBcdWritesTheDigits :
    (State.reset.setIndex 0xFFD).i.toNat + 3 ≤ 0x1000 ∧ (0xFFC : Nat) < (State.reset.setIndex 0xFFD).i.toNat := by decide

/-- For StoreRegistersWritesTheRun, LoadRegistersReadsTheRun: the last legal I, and a byte on either side. -/
theorem witness_bulk_transfer :
    (State.reset.setIndex 0xFF0).i.toNat + (0xF : RegIndex).toNat < 0x1000 ∧ (0xFEF : Nat) < (State.reset.setIndex 0xFF0).i.toNat ∧
    (0xF : RegIndex) ≤ 0xF := by decide

theorem witness_FetchSeesTheStore :
    ∃ t u : State, (State.reset.setIndex 0x300).i.toNat + (1 : RegIndex).toNat < 0x1000 ∧
      exec (.storeRegisters 1) (State.reset.setIndex 0x300) = .next t ∧ (1 : RegIndex).toNat = (0 : RegIndex).toNat + 1 ∧
      (1 : RegIndex) ≤ 1 ∧ u.mem = t.mem ∧ u.params = t.params ∧
      u.pc.toNat = (State.reset.setIndex 0x300).i.toNat + (0 : RegIndex).toNat :=
  ⟨_, { (State.reset.setIndex 0x300) with pc := 0x300 }, by decide, rfl, by decide, by decide, by decide, rfl, by decide⟩

theorem witness_StoreThenLoadRegistersRoundTrips :
    ∃ t u : State, (State.reset.setIndex 0x300).i.toNat + (0xF : RegIndex).toNat < 0x1000 ∧
      exec (.storeRegisters 0xF) (State.reset.setIndex 0x300) = .next t ∧ u.mem = t.mem ∧ u.params = t.params ∧
      u.i = (State.reset.setIndex 0x300).i :=
  ⟨_, _, by decide, rfl, rfl, rfl, rfl⟩

theorem witness_AGoodEndIsAFixedPoint :
    (placed 0x1FFE { State.reset with pc := 0xFFE }).EndsWell ∧ (placed 0x1FFE { State.reset with pc := 0xFFE }).driver = [] := by
  unfold State.EndsWell; decide

end Sys2Proof.Tests
end

section
/-! SUPPORT. The inversion layer of `exec`: what the fault-raising meanings can answer, and what an instruction other than Call and
Return leaves alone. Then the statements of 10_state.md on the keys (R42) and the stack pointer (R37). -/

namespace Sys2Proof.Machine

/-! ### What a meaning can answer -/

/-- A meaning that checks its fault condition first answers the halted state or its result (60_exceptions.md R262). -/
theorem raise_or_next {c : Prop} [Decidable c] {e : HaltReason} {s t u : State}
    (h : (if c then raise e s else .next u) = .next t) : (c ∧ t = s.halt e) ∨ (¬c ∧ t = u) := by
  by_cases hc : c
  · rw [if_pos hc] at h
    exact .inl ⟨hc, (Host.Outcome.next.inj h).symm⟩
  · rw [if_neg hc] at h
    exact .inr ⟨hc, (Host.Outcome.next.inj h).symm⟩

/-- Call overflows, or pushes the return address and jumps (40_control_transfer.md R141). -/
theorem execCall_cases {nnn : Addr12} {s t : State} (h : execCall nnn s = .next t) :
    (16 ≤ s.sp.toNat ∧ t = s.halt .stackOverflow) ∨
      (¬16 ≤ s.sp.toNat ∧ t = (s.push s.pcNext).setPc (zextAddr nnn)) :=
  raise_or_next h

/-- Return underflows, or pops the top of the stack into pc (R142). -/
theorem execReturn_cases {s t : State} (h : execReturn s = .next t) :
    (s.sp = 0 ∧ t = s.halt .stackUnderflow) ∨ (s.sp ≠ 0 ∧ ∃ a, s.top = some a ∧ t = s.dropTop.setPc a) := by
  unfold execReturn at h
  split at h
  · next h0 => exact .inl ⟨h0, (Host.Outcome.next.inj h).symm⟩
  · next h0 =>
    split at h
    · next a ha => exact .inr ⟨h0, a, ha, (Host.Outcome.next.inj h).symm⟩
    · cases h

/-- SkipIfPressed skips by the selected key, or faults where the register selects none (45_input_timers.md R220, R222). -/
theorem execSkipIfPressed_cases {x : RegIndex} {s t : State} (h : execSkipIfPressed x s = .next t) :
    (∃ k, keyOf (s.reg x) = some k ∧ t = s.skipIf (s.key k)) ∨
      (keyOf (s.reg x) = none ∧ t = s.halt (.keyIndexOutOfRange (s.reg x))) := by
  unfold execSkipIfPressed at h
  split at h
  · next k hk => exact .inl ⟨k, hk, (Host.Outcome.next.inj h).symm⟩
  · next hk => exact .inr ⟨hk, (Host.Outcome.next.inj h).symm⟩

/-- SkipIfNotPressed, likewise (R221, R222). -/
theorem execSkipIfNotPressed_cases {x : RegIndex} {s t : State} (h : execSkipIfNotPressed x s = .next t) :
    (∃ k, keyOf (s.reg x) = some k ∧ t = s.skipIf (!s.key k)) ∨
      (keyOf (s.reg x) = none ∧ t = s.halt (.keyIndexOutOfRange (s.reg x))) := by
  unfold execSkipIfNotPressed at h
  split at h
  · next k hk => exact .inl ⟨k, hk, (Host.Outcome.next.inj h).symm⟩
  · next hk => exact .inr ⟨hk, (Host.Outcome.next.inj h).symm⟩

/-! ### The frame of an instruction -/

/-- What no instruction but Call and Return touches: the stack, and what belongs to the outside (the keys, the key history, the
parameters and the pending operations). -/
structure KeepsStackAndInputs (s t : State) : Prop where
  sp : t.sp = s.sp
  stack : t.stack = s.stack
  keys : t.keys = s.keys
  keyPrev : t.keyPrev = s.keyPrev
  params : t.params = s.params
  driver : t.driver = s.driver

/-- A fault is a frame: it writes the status only (R262). -/
theorem KeepsStackAndInputs.halt (s : State) (e : HaltReason) : KeepsStackAndInputs s (s.halt e) :=
  ⟨rfl, rfl, rfl, rfl, rfl, rfl⟩

/-- A skip writes pc only (R154). -/
theorem KeepsStackAndInputs.skipIf (s : State) (c : Bool) : KeepsStackAndInputs s (s.skipIf c) :=
  ⟨rfl, rfl, rfl, rfl, rfl, rfl⟩

/-- A result with its flag writes two registers and pc (R160). -/
theorem KeepsStackAndInputs.writeWithFlag (s : State) (x : RegIndex) (b f : Byte) :
    KeepsStackAndInputs s (s.writeWithFlag x b f) :=
  ⟨rfl, rfl, rfl, rfl, rfl, rfl⟩

/-- A logic result writes a register, VF at most, and pc (R164 to R166). -/
theorem KeepsStackAndInputs.writeLogic (s : State) (x : RegIndex) (b : Byte) :
    KeepsStackAndInputs s (s.writeLogic x b) := by
  unfold State.writeLogic
  constructor <;> simp

/-- A wait writes a register, pc and the draw counter, or nothing (R223). -/
theorem KeepsStackAndInputs.waitKeyPress (c : Nat) (x : RegIndex) (s : State) :
    KeepsStackAndInputs s (waitKeyPress c x s) := by
  obtain ⟨-, e⟩ | ⟨k, -, e⟩ := waitKeyPress_cases c x s <;> rw [e]
  · exact ⟨rfl, rfl, rfl, rfl, rfl, rfl⟩
  · exact ⟨rfl, rfl, rfl, rfl, rfl, rfl⟩

/-- Every instruction other than Call and Return leaves the stack and the inputs. -/
theorem exec_cases {i : Instr} {s t : State} (h : exec i s = .next t) :
    (∃ nnn, i = .call nnn ∧ execCall nnn s = .next t) ∨ (i = .ret ∧ execReturn s = .next t) ∨
      KeepsStackAndInputs s t := by
  cases i
  case call nnn => exact .inl ⟨nnn, rfl, h⟩
  case ret => exact .inr (.inl ⟨rfl, h⟩)
  all_goals refine .inr (.inr ?_)
  -- the meanings that can fault
  case skipIfPressed x =>
    obtain ⟨k, -, rfl⟩ | ⟨-, rfl⟩ := execSkipIfPressed_cases h
    · exact .skipIf ..
    · exact .halt ..
  case skipIfNotPressed x =>
    obtain ⟨k, -, rfl⟩ | ⟨-, rfl⟩ := execSkipIfNotPressed_cases h
    · exact .skipIf ..
    · exact .halt ..
  case draw | storeBcd | storeRegisters | loadRegisters =>
    obtain ⟨-, rfl⟩ | ⟨-, rfl⟩ := raise_or_next h
    · exact .halt ..
    · constructor <;> simp
  -- the meanings that always answer one written-out state
  all_goals obtain rfl := Host.Outcome.next.inj h
  case waitKeyPress x => exact .waitKeyPress ..
  case or | and | xor => exact .writeLogic ..
  case skipEqualByte | skipNotEqualByte | skipEqualRegister | skipNotEqualRegister => exact .skipIf ..
  case add | subtract | subtractReverse | shiftRight | shiftLeft => exact .writeWithFlag ..
  all_goals exact ⟨rfl, rfl, rfl, rfl, rfl, rfl⟩

/-- No instruction writes a key (10_state.md R42). -/
theorem exec_keys {i : Instr} {s t : State} (h : exec i s = .next t) : t.keys = s.keys := by
  obtain ⟨nnn, -, hc⟩ | ⟨-, hr⟩ | hk := exec_cases h
  · obtain ⟨-, rfl⟩ | ⟨-, rfl⟩ := execCall_cases hc <;> rfl
  · obtain ⟨-, rfl⟩ | ⟨-, a, -, rfl⟩ := execReturn_cases hr <;> rfl
  · exact hk.keys

/-- SetKey writes the keys only (R42). -/
theorem State.setKey_frame (s : State) (k : KeyIndex) (b : Bool) :
    s.setKey k b = { s with keys := (s.setKey k b).keys } := rfl

/-- Settles O14: SetKey reads back as one written key, and the frame of `exec` holds the keys. -/
theorem onlySetKeyWritesTheKeys : Obligations.OnlySetKeyWritesTheKeys :=
  ⟨fun s k b => ⟨fun k' => s.key_writeKey k k' b, s.setKey_frame k b⟩, fun _ _ _ h => exec_keys h⟩

/-! ### The stack pointer (R35 to R37) -/

/-- At the upper bound a Call overflows (R37). -/
theorem execCall_overflow {s : State} (nnn : Addr12) (h : 16 ≤ s.sp.toNat) :
    execCall nnn s = .next (s.halt .stackOverflow) := by
  rw [execCall, if_pos h, raise]

/-- At the lower bound a Return underflows (R37). -/
theorem execReturn_underflow {s : State} (h : s.sp = 0) : execReturn s = .next (s.halt .stackUnderflow) := by
  rw [execReturn, if_pos h, raise]

/-- A push below the upper bound does not wrap `sp`. -/
theorem State.toNat_push_sp {s : State} (a : Word) (h : s.sp.toNat < 16) : (s.push a).sp.toNat = s.sp.toNat + 1 := by
  rw [State.push_sp]
  bv_omega

/-- A pop from a stack that is not empty does not wrap `sp`. -/
theorem State.toNat_dropTop_sp {s : State} (h : s.sp ≠ 0) : s.dropTop.sp.toNat + 1 = s.sp.toNat := by
  rw [State.dropTop_sp]
  bv_omega

/-- `sp` moves by one, up by a Call below the upper bound and down by a Return above the lower one, or stays (R37). -/
theorem exec_sp {i : Instr} {s t : State} (h : exec i s = .next t) :
    t.sp = s.sp ∨ (s.sp.toNat < 16 ∧ t.sp.toNat = s.sp.toNat + 1 ∧ ∃ nnn, i = .call nnn) ∨
      (t.sp.toNat + 1 = s.sp.toNat ∧ i = .ret) := by
  obtain ⟨nnn, rfl, hc⟩ | ⟨rfl, hr⟩ | hk := exec_cases h
  · obtain ⟨-, rfl⟩ | ⟨hlt, rfl⟩ := execCall_cases hc
    · exact .inl rfl
    · exact .inr (.inl ⟨by omega, State.toNat_push_sp s.pcNext (by omega), nnn, rfl⟩)
  · obtain ⟨-, rfl⟩ | ⟨h0, a, -, rfl⟩ := execReturn_cases hr
    · exact .inl rfl
    · exact .inr (.inr ⟨State.toNat_dropTop_sp h0, rfl⟩)
  · exact .inl hk.sp

/-- R35's bound on `sp` is kept by every instruction. -/
theorem exec_sp_le {i : Instr} {s t : State} (hs : s.sp.toNat ≤ 16) (h : exec i s = .next t) : t.sp.toNat ≤ 16 := by
  obtain e | ⟨hlt, e, -⟩ | ⟨e, -⟩ := exec_sp h
  · rwa [e]
  · omega
  · omega

/-- Settles O29: the two faults at the bounds, and the movement of `sp` read off the inversion of `exec`. -/
theorem stackPointerFaultsAtItsBounds : Obligations.StackPointerFaultsAtItsBounds := by
  intro s
  refine ⟨fun h16 nnn => execCall_overflow nnn h16.ge, execReturn_underflow, fun i t hs h => ⟨exec_sp_le hs h, ?_⟩⟩
  obtain e | ⟨-, up⟩ | down := exec_sp h
  · exact .inl e
  · exact .inr (.inl up)
  · exact .inr (.inr down)

end Sys2Proof.Machine
end

section
/-! SUPPORT. The value of a big-endian word, and the statement of 20_memory.md on the fetch (R73, R74). -/

namespace Sys2Proof.Machine

/-- The byte at the lower address weighs 256 (R73). -/
theorem toNat_wordOfBytes (first second : Byte) :
    (wordOfBytes first second).toNat = first.toNat * 256 + second.toNat := by
  rw [wordOfBytes, BitVec.toNat_append, ← Nat.shiftLeft_add_eq_or_of_lt second.isLt, Nat.shiftLeft_eq]

/-- Settles O5: the fetch answers the word at `pc` below the bound, whose value is its two bytes', and faults from the bound on. -/
theorem fetchIsBigEndianAndBounded : Obligations.FetchIsBigEndianAndBounded :=
  fun s => ⟨fun h => ⟨_, s.fetch_ok h, toNat_wordOfBytes _ _⟩, s.fetch_error⟩

end Sys2Proof.Machine
end

section
/-! SUPPORT. A word that matches a row of the opcode map is put together again by `encode` from the fields the row takes, one lemma per
shape of pattern (R101, R110); then the statement of 30_encoding.md on the round trip (R114). -/

namespace Sys2Proof

/-! ### A word is its fields (R101) -/

theorem packXYN_fields (w : Word) : packXYN (fieldOp w) (fieldX w) (fieldY w) (fieldN w) = w := by
  apply BitVec.eq_of_toNat_eq
  rw [packXYN_toNat, fieldOp_toNat, fieldX_toNat, fieldY_toNat, fieldN_toNat]; omega

theorem packXKK_fields (w : Word) : packXKK (fieldOp w) (fieldX w) (fieldKK w) = w := by
  apply BitVec.eq_of_toNat_eq
  rw [packXKK_toNat, fieldOp_toNat, fieldX_toNat, fieldKK_toNat]; omega

theorem packNNN_fields (w : Word) : packNNN (fieldOp w) (fieldNNN w) = w := by
  apply BitVec.eq_of_toNat_eq
  rw [packNNN_toNat, fieldOp_toNat, fieldNNN_toNat]; omega

@[simp] theorem fieldOp_packXYN (op : BitVec 4) (x y : RegIndex) (n : Nibble) : fieldOp (packXYN op x y n) = op := by
  apply BitVec.eq_of_toNat_eq
  have := n.isLt; have := y.isLt; have := x.isLt
  rw [fieldOp_toNat, packXYN_toNat]; omega

@[simp] theorem fieldOp_packXKK (op : BitVec 4) (x : RegIndex) (kk : Byte) : fieldOp (packXKK op x kk) = op := by
  apply BitVec.eq_of_toNat_eq
  have := x.isLt; have := kk.isLt
  rw [fieldOp_toNat, packXKK_toNat]; omega

@[simp] theorem fieldOp_packNNN (op : BitVec 4) (nnn : Addr12) : fieldOp (packNNN op nnn) = op := by
  apply BitVec.eq_of_toNat_eq
  have := nnn.isLt
  rw [fieldOp_toNat, packNNN_toNat]; omega

/-! ### Encoding what a row builds

The mask of a pattern keeps the fields that are fixed in it, so a word that matches has those fields, and packing them with the ones
the row takes gives the word. -/

/-- Whatever word selects the row is the word of the instruction the row builds from it. -/
def Row.EncodesBack (r : Row) : Prop := ∀ w : Word, w &&& r.mask = r.value → encode (r.build w) = w

/-- The patterns without a field. -/
theorem eq_of_mask_word (v w : Word) (h : w &&& 0xFFFF = v) : v = w :=
  h.symm.trans BitVec.and_allOnes

/-- The patterns `op nnn`. -/
theorem packNNN_of_mask (op : BitVec 4) (w : Word) (h : w &&& 0xF000 = packNNN op 0) : packNNN op (fieldNNN w) = w := by
  have hop : fieldOp w = op := by
    rw [← packNNN_fields w, packNNN_mask] at h
    simpa only [fieldOp_packNNN] using congrArg fieldOp h
  rw [← hop, packNNN_fields]

/-- The patterns `op x kk` with the literal free. -/
theorem packXKK_of_mask_op (op : BitVec 4) (w : Word) (h : w &&& 0xF000 = packXKK op 0 0) :
    packXKK op (fieldX w) (fieldKK w) = w := by
  have hop : fieldOp w = op := by
    rw [← packXKK_fields w, packXKK_mask_op] at h
    simpa only [fieldOp_packXKK] using congrArg fieldOp h
  rw [← hop, packXKK_fields]

/-- The patterns `op x kk` with the low byte fixed, families E and F. -/
theorem packXKK_of_mask (op : BitVec 4) (kk : Byte) (w : Word) (h : w &&& 0xF0FF = packXKK op 0 kk) :
    packXKK op (fieldX w) kk = w := by
  rw [← packXKK_fields w, packXKK_mask] at h
  have hop : fieldOp w = op := by simpa only [fieldOp_packXKK] using congrArg fieldOp h
  have hkk : fieldKK w = kk := by simpa only [fieldKK_packXKK] using congrArg fieldKK h
  rw [← hop, ← hkk, packXKK_fields]

/-- The pattern `op x y n` with `n` free, Draw's. -/
theorem packXYN_of_mask_op (op : BitVec 4) (w : Word) (h : w &&& 0xF000 = packXYN op 0 0 0) :
    packXYN op (fieldX w) (fieldY w) (fieldN w) = w := by
  have hop : fieldOp w = op := by
    rw [← packXYN_fields w, packXYN_mask_op] at h
    simpa only [fieldOp_packXYN] using congrArg fieldOp h
  rw [← hop, packXYN_fields]

/-- The patterns `op x y n` with the low nibble fixed, families 5, 8 and 9; `y` is kept where it is ignored (R113). -/
theorem packXYN_of_mask (op : BitVec 4) (n : Nibble) (w : Word) (h : w &&& 0xF00F = packXYN op 0 0 n) :
    packXYN op (fieldX w) (fieldY w) n = w := by
  rw [← packXYN_fields w, packXYN_mask] at h
  have hop : fieldOp w = op := by simpa only [fieldOp_packXYN] using congrArg fieldOp h
  have hn : fieldN w = n := by simpa only [fieldN_packXYN] using congrArg fieldN h
  rw [← hop, ← hn, packXYN_fields]

theorem opcodeRowsControl_encodesBack : ∀ r ∈ opcodeRowsControl, r.EncodesBack := by
  simp only [opcodeRowsControl, List.forall_mem_cons]
  exact ⟨eq_of_mask_word 0x00E0, eq_of_mask_word 0x00EE, packNNN_of_mask 0x1, packNNN_of_mask 0x2, packXKK_of_mask_op 0x3,
    packXKK_of_mask_op 0x4, packXYN_of_mask 0x5 0x0, packXKK_of_mask_op 0x6, packXKK_of_mask_op 0x7, List.forall_mem_nil _⟩

theorem opcodeRowsAlu_encodesBack : ∀ r ∈ opcodeRowsAlu, r.EncodesBack := by
  simp only [opcodeRowsAlu, List.forall_mem_cons]
  exact ⟨packXYN_of_mask 0x8 0x0, packXYN_of_mask 0x8 0x1, packXYN_of_mask 0x8 0x2, packXYN_of_mask 0x8 0x3,
    packXYN_of_mask 0x8 0x4, packXYN_of_mask 0x8 0x5, packXYN_of_mask 0x8 0x6, packXYN_of_mask 0x8 0x7,
    packXYN_of_mask 0x8 0xE, List.forall_mem_nil _⟩

theorem opcodeRowsOther_encodesBack : ∀ r ∈ opcodeRowsOther, r.EncodesBack := by
  simp only [opcodeRowsOther, List.forall_mem_cons]
  exact ⟨packXYN_of_mask 0x9 0x0, packNNN_of_mask 0xA, packNNN_of_mask 0xB, packXKK_of_mask_op 0xC, packXYN_of_mask_op 0xD,
    packXKK_of_mask 0xE 0x9E, packXKK_of_mask 0xE 0xA1, packXKK_of_mask 0xF 0x07, packXKK_of_mask 0xF 0x0A,
    packXKK_of_mask 0xF 0x15, packXKK_of_mask 0xF 0x18, packXKK_of_mask 0xF 0x1E, packXKK_of_mask 0xF 0x29,
    packXKK_of_mask 0xF 0x33, packXKK_of_mask 0xF 0x55, packXKK_of_mask 0xF 0x65, List.forall_mem_nil _⟩

theorem opcodeTable_encodesBack : ∀ r ∈ opcodeTable, r.EncodesBack :=
  List.forall_mem_append.mpr
    ⟨List.forall_mem_append.mpr ⟨opcodeRowsControl_encodesBack, opcodeRowsAlu_encodesBack⟩, opcodeRowsOther_encodesBack⟩

/-! ### The round trip (R114) -/

/-- The word of an instruction decodes to it: it selects a row that builds it (R114). -/
theorem decode_encode (sys : Config.Sys0nnn) (i : Instr) : decode sys (encode i) = .instr i := by
  obtain ⟨r, hr, hw, hb⟩ := Laws.encodesARow i
  rw [decode_of_row sys _ r hr hw, hb]

/-- Encoding what a word decodes to gives the word: the row that built it encodes back (R114). -/
theorem encode_of_decode {sys : Config.Sys0nnn} {w : Word} {i : Instr} (h : decode sys w = .instr i) : encode i = w := by
  obtain ⟨r, hr, hw, rfl⟩ := row_of_decode sys w i h
  exact opcodeTable_encodesBack r hr w (beq_iff_eq.mp hw)

/-- Under SYS_0NNN = Invalid a word outside the opcode map decodes to nothing (R103, R112). -/
theorem decode_invalid_of_noRow (w : Word) (h : ∀ r ∈ opcodeTable, w &&& r.mask ≠ r.value) :
    decode .invalid w = .invalid w := by
  have hnone : opcodeTable.find? (rowMatches w) = none :=
    List.find?_eq_none.mpr fun r hr hw => h r hr (beq_iff_eq.mp hw)
  rw [decode, hnone]
  exact if_neg fun hsys => nomatch hsys.2

/-- Settles O2: decoding is by the one row a word selects, and each row's instruction packs back to the word. -/
theorem decodeAndEncodeAgree : Obligations.DecodeAndEncodeAgree := fun sys =>
  ⟨fun i _ => decode_encode sys i, fun _ _ h => encode_of_decode h,
    fun r hr w hw => decode_of_row sys w r hr (beq_iff_eq.mpr hw), decode_invalid_of_noRow⟩

end Sys2Proof
end

section
/-! SUPPORT. What Jump, Call and Return leave unchanged, and what Call and Return answer inside the bounds of the stack (the two faults
at its bounds stand above); then the statements of 40_control_transfer.md (R140 to R142). -/

namespace Sys2Proof.Machine

/-- The word of an instruction decodes to it, whatever SYS_0NNN is. -/
theorem decodesTo_encode (i : Instr) : DecodesTo (encode i) i := fun sys => decode_encode sys i

/-- A literal address becomes pc without a change of value (30_encoding.md R102). -/
@[simp] theorem toNat_zextAddr (nnn : Addr12) : (zextAddr nnn).toNat = nnn.toNat :=
  BitVec.toNat_setWidth_of_le (by decide)

/-! ### Frames -/

/-- Everything but pc, the stack pointer and the stack is the same. -/
def SameButPcAndStack (s t : State) : Prop :=
  SameRegs s t ∧ t.i = s.i ∧ t.draws = s.draws ∧ SameTimers s t ∧ SameMemory s t ∧ SameDisplay s t ∧ SameKeys s t ∧
    SameControl s t

/-- The rest of the state is read from other fields. -/
theorem SameButPcAndStack.of_update (s : State) (pc : Word) (sp : Byte) (stack : Vector Word 16) :
    SameButPcAndStack s { s with pc := pc, sp := sp, stack := stack } :=
  ⟨fun _ => rfl, rfl, rfl, ⟨rfl, rfl⟩, fun _ => rfl, fun _ _ => rfl, ⟨fun _ => rfl, fun _ => rfl⟩, rfl, rfl, rfl⟩

/-- A write of pc leaves the stack too. -/
theorem SameButPc.setPc (s : State) (w : Word) : SameButPc s (s.setPc w) := by
  obtain ⟨hregs, hi, hdraws, htimers, hrest⟩ := SameButPcAndStack.of_update s w s.sp s.stack
  exact ⟨hregs, hi, hdraws, htimers, ⟨rfl, fun _ => rfl⟩, hrest⟩

/-! ### Inside the bounds of the stack -/

/-- Below the upper bound a Call pushes the return address and jumps (R141). -/
theorem execCall_push {s : State} (nnn : Addr12) (h : s.sp.toNat < 16) :
    execCall nnn s = .next ((s.push s.pcNext).setPc (zextAddr nnn)) := by
  rw [execCall, if_neg h.not_ge]

/-- A stack with an entry is not empty. -/
theorem State.sp_ne_zero {s : State} {n : Nat} (h : s.sp.toNat = n + 1) : s.sp ≠ 0 := by
  intro e
  simp [e] at h

/-- A Return jumps to the newest occupied entry and drops it (R142). -/
theorem execReturn_pop {s : State} {j : Fin 16} (h : s.sp.toNat = j.val + 1) :
    execReturn s = .next (s.dropTop.setPc (s.stackAt j)) := by
  rw [execReturn, if_neg (State.sp_ne_zero h), s.top_eq j h]

/-! ### The statements -/

/-- Settles O27: a push reads back at the old `sp` only, and it writes nothing but the stack. -/
theorem callPushesTheReturnAddress : Obligations.CallPushesTheReturnAddress := by
  intro nnn s
  refine ⟨decodesTo_encode (.call nnn), fun h => ?_, execCall_overflow nnn⟩
  exact ⟨_, execCall_push nnn h, toNat_zextAddr nnn, State.toNat_push_sp s.pcNext h,
    fun j => s.stackAt_push j s.pcNext, SameButPcAndStack.of_update s ..⟩

/-- Settles O28: with `sp = j + 1` the entry read is the `j`-th, and dropping it moves `sp` only. -/
theorem returnPopsIntoThePc : Obligations.ReturnPopsIntoThePc := by
  intro s
  refine ⟨decodesTo_encode .ret, fun j h => ?_, execReturn_underflow⟩
  have hsp : s.dropTop.sp.toNat = j.val := by
    have := State.toNat_dropTop_sp (State.sp_ne_zero h)
    omega
  exact ⟨_, execReturn_pop h, rfl, hsp, fun _ => rfl, SameButPcAndStack.of_update s ..⟩

/-- Settles O26: a Jump is a write of pc. -/
theorem jumpSetsThePc : Obligations.JumpSetsThePc :=
  fun nnn s => ⟨decodesTo_encode (.jump nnn), _, rfl, toNat_zextAddr nnn, .setPc s _⟩

end Sys2Proof.Machine
end

section
/-! SUPPORT. The common skip step as a statement about its condition (41_conditional_skip.md R154), and the four register skips
(R150 to R153). -/

namespace Sys2Proof.Machine

/-- `skipIf` is R154's skip on any condition that its Boolean decides, the frame included. -/
theorem SkipsWhen.skipIf (s : State) {b : Bool} {c : Prop} [Decidable c] (h : b = true ↔ c) : SkipsWhen s (s.skipIf b) c := by
  refine ⟨?_, .setPc s _⟩
  rw [State.skipIf_pc]
  exact if_congr h rfl rfl

/-- Settles O32: each register skip is the common skip step on its own comparison, and `==` and `!=` on bytes decide `=` and `≠`. -/
theorem registerSkipsCompare : Obligations.RegisterSkipsCompare := by
  intro x y kk s
  refine ⟨decodesTo_encode (.skipEqualByte x kk), decodesTo_encode (.skipNotEqualByte x kk),
    decodesTo_encode (.skipEqualRegister x y), decodesTo_encode (.skipNotEqualRegister x y), ?_, ?_, ?_, ?_⟩
  · exact ⟨_, rfl, .skipIf s beq_iff_eq⟩
  · exact ⟨_, rfl, .skipIf s bne_iff_ne⟩
  · exact ⟨_, rfl, .skipIf s beq_iff_eq⟩
  · exact ⟨_, rfl, .skipIf s bne_iff_ne⟩

end Sys2Proof.Machine
end

section
/-! SUPPORT. A register write, with and without a flag behind it, as the statements say it, frame included; the ALU's results and
flags as arithmetic on the operands' values; then the statements of 42_register_alu.md on LoadByte, AddByte, Add, Subtract and the
shifts (R161, R162, R167 to R169, R171). -/

namespace Sys2Proof.Machine

/-! ### Register writes (R160) -/

/-- The rest of the state is read from other fields than the general registers, I, pc and the draw counter. -/
theorem SameRest.of_update (s : State) (v : Vector Byte 16) (i pc : Word) (draws : Nat) :
    SameRest s { s with v := v, i := i, pc := pc, draws := draws } :=
  ⟨⟨rfl, rfl⟩, ⟨rfl, fun _ => rfl⟩, fun _ => rfl, fun _ _ => rfl, ⟨fun _ => rfl, fun _ => rfl⟩, rfl, rfl, rfl⟩

/-- A register write followed by the advance writes that register, VF only if it is the one, and pc. -/
theorem WritesReg.setReg_advance (s : State) (x : RegIndex) (b : Byte) : WritesReg s (s.setReg x b).advance x b :=
  ⟨rfl, fun y => s.reg_setReg x y b, rfl, rfl, .of_update s ..⟩

/-- The flag is written after the result, so it wins in VF and no other register sees it. -/
theorem WritesRegThenFlag.writeWithFlag (s : State) (x : RegIndex) {result b flag f : Byte} (hb : result = b) (hf : flag = f) :
    WritesRegThenFlag s (s.writeWithFlag x result flag) x b f := by
  subst hb hf
  refine ⟨rfl, ?_, fun y hy => ?_, rfl, rfl, .of_update s ..⟩
  · exact (State.reg_setFlag _ 0xF flag).trans (if_pos rfl)
  · exact ((State.reg_setFlag _ y flag).trans (if_neg hy)).trans (s.reg_setReg x y result)

/-! ### Flags and results as arithmetic -/

/-- The carry and the NOT borrow are flags of a comparison. -/
theorem flagByte_decide (p : Prop) [Decidable p] : flagByte (decide p) = if p then 1 else 0 := by
  simp [flagByte]

/-- The byte difference is the exact one mod 256. -/
theorem byte_sub_eq_ofInt (a b : Byte) : a - b = BitVec.ofInt 8 (a.toNat - b.toNat) := by
  apply BitVec.eq_of_toInt_eq
  rw [BitVec.toInt_sub, BitVec.toInt_ofInt, BitVec.toInt_eq_toNat_bmod, BitVec.toInt_eq_toNat_bmod,
    ← Int.sub_bmod]

/-- A right shift by one bit is the half. -/
theorem byte_shiftRight_one (a : Byte) : a >>> 1 = BitVec.ofNat 8 (a.toNat / 2) := by
  apply BitVec.eq_of_toNat_eq
  rw [BitVec.toNat_ushiftRight, Nat.shiftRight_eq_div_pow, BitVec.toNat_ofNat]
  omega

/-- A left shift by one bit is the double mod 256. -/
theorem byte_shiftLeft_one (a : Byte) : a <<< 1 = BitVec.ofNat 8 (2 * a.toNat) := by
  apply BitVec.eq_of_toNat_eq
  rw [BitVec.toNat_shiftLeft, Nat.shiftLeft_eq, BitVec.toNat_ofNat, Nat.mul_comm, Nat.pow_one]

/-- Bit 0 is the remainder mod 2. -/
theorem shiftRightFlag_eq (a : Byte) : shiftRightFlag a = BitVec.ofNat 8 (a.toNat % 2) := by
  apply BitVec.eq_of_toNat_eq
  have hbit : (shiftRightFlag a).toNat = a.toNat % 2 := by
    rw [shiftRightFlag, BitVec.toNat_and]
    exact Nat.and_one_is_mod _
  rw [hbit, BitVec.toNat_ofNat]
  omega

/-- Bit 7 is what a byte holds above its other seven bits, and no bit stands above it. -/
theorem shiftLeftFlag_eq (a : Byte) : shiftLeftFlag a = BitVec.ofNat 8 (a.toNat / 128) := by
  apply BitVec.eq_of_toNat_eq
  have hbit : (shiftLeftFlag a).toNat = a.toNat / 128 % 2 := by
    rw [shiftLeftFlag, BitVec.toNat_and, BitVec.toNat_ushiftRight, Nat.shiftRight_eq_div_pow]
    exact Nat.and_one_is_mod _
  have := a.isLt
  rw [hbit, BitVec.toNat_ofNat]
  omega

/-! ### The statements -/

/-- Settles O34: both are one register write, and byte addition is the sum mod 256. -/
theorem byteLoadAndByteAdd : Obligations.ByteLoadAndByteAdd := fun x kk s =>
  ⟨decodesTo_encode (.loadByte x kk), decodesTo_encode (.addByte x kk),
    ⟨_, rfl, .setReg_advance s x kk⟩, ⟨_, rfl, .setReg_advance s x (s.reg x + kk)⟩⟩

/-- Settles O37: the sum with the carry behind it. -/
theorem addSetsTheCarry : Obligations.AddSetsTheCarry := fun x y s =>
  ⟨decodesTo_encode (.add x y), _, rfl, .writeWithFlag s x (BitVec.add_def ..) (flagByte_decide _)⟩

/-- Settles O38: the difference with the NOT borrow behind it. -/
theorem subtractSetsNotBorrow : Obligations.SubtractSetsNotBorrow := fun x y s =>
  ⟨decodesTo_encode (.subtract x y), _, rfl, .writeWithFlag s x (byte_sub_eq_ofInt ..) (flagByte_decide _)⟩

/-- Settles O40: half or double of `V[x]` with the bit shifted out behind it; `y` stands in the word only. -/
theorem shiftsMoveOneBitIntoVF : Obligations.ShiftsMoveOneBitIntoVF := by
  intro x y s
  refine ⟨decodesTo_encode (.shiftRight x y), decodesTo_encode (.shiftLeft x y), ?_, ?_⟩
  · exact ⟨_, rfl, .writeWithFlag s x (byte_shiftRight_one _) (shiftRightFlag_eq _)⟩
  · exact ⟨_, rfl, .writeWithFlag s x (byte_shiftLeft_one _) (shiftLeftFlag_eq _)⟩

end Sys2Proof.Machine
end

section
/-! SUPPORT. A write of I as the statements say it, frame included, and the exact sum of a byte and a literal address as words; then
the statement of 43_index_random.md on LoadIndex and JumpWithOffset (R190, R192). -/

namespace Sys2Proof.Machine

/-- A register byte becomes a word without a change of value (43_index_random.md R191, R192). -/
@[simp] theorem toNat_zextByte (b : Byte) : (zextByte b).toNat = b.toNat :=
  BitVec.toNat_setWidth_of_le (by decide)

/-- A word holds the sum of a byte and a literal address: neither can carry past 16 bits (R192). -/
theorem toNat_zextByte_add_zextAddr (b : Byte) (nnn : Addr12) :
    (zextByte b + zextAddr nnn).toNat = b.toNat + nnn.toNat := by
  have hb := b.isLt
  have hn := nnn.isLt
  rw [BitVec.toNat_add, toNat_zextByte, toNat_zextAddr, Nat.mod_eq_of_lt (by omega)]

/-- A write of I followed by the advance writes I and pc only. -/
theorem WritesIndex.setIndex_advance (s : State) (w : Word) : WritesIndex s (s.setIndex w).advance w :=
  ⟨rfl, rfl, fun _ => rfl, rfl, .of_update s ..⟩

/-- Settles O41: LoadIndex is one write of I, and JumpWithOffset one write of pc whose sum fits a word. -/
theorem loadIndexAndJumpWithOffset : Obligations.LoadIndexAndJumpWithOffset := by
  intro nnn s
  refine ⟨decodesTo_encode (.loadIndex nnn), decodesTo_encode (.jumpWithOffset nnn), ?_, ?_⟩
  · have hw : zextAddr nnn = BitVec.ofNat 16 nnn.toNat := (BitVec.ofNat_toNat ..).symm
    exact ⟨_, rfl, hw ▸ .setIndex_advance s _⟩
  · exact ⟨_, rfl, toNat_zextByte_add_zextAddr (s.reg 0) nnn, .setPc s _⟩

end Sys2Proof.Machine
end

section
/-! SUPPORT. What a write of the display leaves unchanged; then the statement of 44_display.md on ClearDisplay (R203). -/

namespace Sys2Proof.Machine

/-- Everything but the general registers, pc and the display is the same. -/
def SameButRegsPcAndDisplay (s t : State) : Prop :=
  t.i = s.i ∧ t.draws = s.draws ∧ SameTimers s t ∧ SameStack s t ∧ SameMemory s t ∧ SameKeys s t ∧ SameControl s t

/-- The rest of the state is read from other fields. -/
theorem SameButRegsPcAndDisplay.of_update (s : State) (v : Vector Byte 16) (pc : Word) (disp : Display) :
    SameButRegsPcAndDisplay s { s with v := v, pc := pc, disp := disp } :=
  ⟨rfl, rfl, ⟨rfl, rfl⟩, ⟨rfl, fun _ => rfl⟩, fun _ => rfl, ⟨fun _ => rfl, fun _ => rfl⟩, rfl, rfl, rfl⟩

/-- Every pixel reads 0 after the display is written with the clear screen. -/
theorem State.pixel_setDisplay_clearScreen (s : State) (r : Fin 32) (c : Fin 64) :
    (s.setDisplay clearScreen).pixel r c = false := by
  rw [State.pixel_setDisplay, get_clearScreen]

/-- Settles O47: ClearDisplay is one write of the display, and the advance moves pc only. -/
theorem clearDisplayClearsEveryPixel : Obligations.ClearDisplayClearsEveryPixel := fun s =>
  ⟨decodesTo_encode .clearDisplay, _, rfl, s.pixel_setDisplay_clearScreen, rfl, fun _ => rfl,
    SameButRegsPcAndDisplay.of_update s ..⟩

end Sys2Proof.Machine
end

section
/-! SUPPORT. A timer write as an update of the state record, frame included; then the statement of 45_input_timers.md on the timer
transfers (R226 to R228). -/

namespace Sys2Proof.Machine

/-- A write of DT followed by the advance writes DT and pc only (R227). -/
theorem State.advance_setDelay (s : State) (b : Byte) : (s.setDelay b).advance = { s with dt := b, pc := s.pc + 2 } := rfl

/-- A write of ST followed by the advance writes ST and pc only (R228). -/
theorem State.advance_setSound (s : State) (b : Byte) : (s.setSound b).advance = { s with st := b, pc := s.pc + 2 } := rfl

/-- Settles O44: LoadDelayTimer is one register write, and each store one write of its timer. -/
theorem timerTransfersCopy : Obligations.TimerTransfersCopy := by
  intro x s
  refine ⟨decodesTo_encode (.loadDelayTimer x), decodesTo_encode (.storeDelayTimer x),
    decodesTo_encode (.storeSoundTimer x), ?_, ?_, ?_⟩
  · exact ⟨_, rfl, .setReg_advance s x s.dt⟩
  · exact ⟨_, rfl, s.advance_setDelay (s.reg x)⟩
  · exact ⟨_, rfl, s.advance_setSound (s.reg x)⟩

end Sys2Proof.Machine
end

section
/-! SUPPORT. `exec` in normal form: the fault an instruction raises in a state, the state of one that raises none, and what `exec`
answers in terms of the two. -/

namespace Sys2Proof.Machine

/-- The fault an instruction raises in a state, if it raises one (60_exceptions.md R261). -/
def State.faultOf (s : State) : Instr → Option HaltReason
  | .call _ => if 16 ≤ s.sp.toNat then some .stackOverflow else none
  | .ret => if s.sp = 0 then some .stackUnderflow else none
  | .skipIfPressed x | .skipIfNotPressed x =>
    if keyOf (s.reg x) = none then some (.keyIndexOutOfRange (s.reg x)) else none
  | .draw _ _ n => if s.outOfRange n.toNat then some s.rangeFault else none
  | .storeBcd _ => if s.outOfRange 3 then some s.rangeFault else none
  | .storeRegisters x | .loadRegisters x => if s.outOfRange (transferLength x) then some s.rangeFault else none
  | _ => none

/-- The state after an instruction that raises no fault. -/
def State.after (s : State) : Instr → State
  | .clearDisplay => (s.setDisplay clearScreen).advance
  | .ret => s.dropTop.setPc (s.top.getD 0)
  | .jump nnn => s.setPc (zextAddr nnn)
  | .call nnn => (s.push s.pcNext).setPc (zextAddr nnn)
  | .skipEqualByte x kk => s.skipIf (s.reg x == kk)
  | .skipNotEqualByte x kk => s.skipIf (s.reg x != kk)
  | .skipEqualRegister x y => s.skipIf (s.reg x == s.reg y)
  | .loadByte x kk => (s.setReg x kk).advance
  | .addByte x kk => (s.setReg x (s.reg x + kk)).advance
  | .loadRegister x y => (s.setReg x (s.reg y)).advance
  | .or x y => s.writeLogic x (s.reg x ||| s.reg y)
  | .and x y => s.writeLogic x (s.reg x &&& s.reg y)
  | .xor x y => s.writeLogic x (s.reg x ^^^ s.reg y)
  | .add x y => s.writeWithFlag x (s.reg x + s.reg y) (carryFlag (s.reg x) (s.reg y))
  | .subtract x y => s.writeWithFlag x (s.reg x - s.reg y) (notBorrowFlag (s.reg x) (s.reg y))
  | .shiftRight x _ => s.writeWithFlag x (s.reg x >>> 1) (shiftRightFlag (s.reg x))
  | .subtractReverse x y => s.writeWithFlag x (s.reg y - s.reg x) (notBorrowFlag (s.reg y) (s.reg x))
  | .shiftLeft x _ => s.writeWithFlag x (s.reg x <<< 1) (shiftLeftFlag (s.reg x))
  | .skipNotEqualRegister x y => s.skipIf (s.reg x != s.reg y)
  | .loadIndex nnn => (s.setIndex (zextAddr nnn)).advance
  | .jumpWithOffset nnn => s.setPc (zextByte (s.reg 0) + zextAddr nnn)
  | .randomWithMask x kk => (randomWithMask (Config.freeByte s.draws) x kk s).nextDraw
  | .draw x y n => ((s.setDisplay (s.drawSprite x y n).1).setFlag (flagByte (s.drawSprite x y n).2)).advance
  | .skipIfPressed x => s.skipIf ((keyOf (s.reg x)).any s.key)
  | .skipIfNotPressed x => s.skipIf (!(keyOf (s.reg x)).any s.key)
  | .loadDelayTimer x => (s.setReg x s.dt).advance
  | .waitKeyPress x => waitKeyPress (Config.freeChoice s.draws) x s
  | .storeDelayTimer x => (s.setDelay (s.reg x)).advance
  | .storeSoundTimer x => (s.setSound (s.reg x)).advance
  | .addToIndex x => (s.setIndex (s.i + zextByte (s.reg x))).advance
  | .loadSprite x => (s.setIndex (glyphAddress s.params (s.reg x))).advance
  | .storeBcd x => (s.storeBytes (s.ea 0) (bcdDigits (s.reg x))).advance
  | .storeRegisters x => ((s.storeBytes (s.ea 0) (s.regList x)).bumpIndex x).advance
  | .loadRegisters x => ((s.loadRegs x).bumpIndex x).advance

/-- A check that raises `e`, as an option. -/
theorem raise_of_some {c : Prop} [Decidable c] {e e' : HaltReason} {s : State} {r : Result}
    (h : (if c then some e else none) = some e') : (if c then raise e s else r) = .next (s.halt e') := by
  by_cases hc : c
  · rw [if_pos hc] at h ⊢
    exact Option.some.inj h ▸ rfl
  · simp [hc] at h

/-- A check that raises nothing. -/
theorem next_of_none {c : Prop} [Decidable c] {e : HaltReason} {s : State} {r : Result}
    (h : (if c then some e else none) = none) : (if c then raise e s else r) = r := by
  by_cases hc : c
  · simp [hc] at h
  · rw [if_neg hc]

/-- A raised fault is taken: nothing but the status changes (R262). -/
theorem exec_of_fault {i : Instr} {s : State} {e : HaltReason} (h : s.faultOf i = some e) : exec i s = .next (s.halt e) := by
  cases i
  case call | ret | draw | storeBcd | storeRegisters | loadRegisters => exact raise_of_some h
  case skipIfPressed x | skipIfNotPressed x =>
    obtain ⟨-, k, hk, -⟩ | ⟨-, hk⟩ := keyOf_cases (s.reg x)
    · simp [State.faultOf, hk] at h
    · simp only [State.faultOf, hk, if_true, Option.some.injEq] at h
      simp [exec, execSkipIfPressed, execSkipIfNotPressed, hk, raise, h]
  all_goals cases h

/-- Without a fault, and short of a Return past the stack, the instruction completes. -/
theorem exec_of_noFault {i : Instr} {s : State} (h : s.faultOf i = none) (hsp : i = .ret → s.sp.toNat ≤ 16) :
    exec i s = .next (s.after i) := by
  cases i
  case call | draw | storeBcd | storeRegisters | loadRegisters => exact next_of_none h
  case ret =>
    have h0 : s.sp ≠ 0 := by simpa [State.faultOf] using h
    have hj : s.sp.toNat - 1 < 16 := by have := hsp rfl; omega
    have hpos : s.sp.toNat = s.sp.toNat - 1 + 1 := by have := State.toNat_dropTop_sp h0; omega
    have htop := s.top_eq ⟨s.sp.toNat - 1, hj⟩ hpos
    rw [State.after, htop]
    exact execReturn_pop hpos
  case skipIfPressed x | skipIfNotPressed x =>
    obtain ⟨-, k, hk, -⟩ | ⟨-, hk⟩ := keyOf_cases (s.reg x)
    · simp [State.after, exec, execSkipIfPressed, execSkipIfNotPressed, hk]
    · simp [State.faultOf, hk] at h
  all_goals rfl

/-- The one stop of the model: a Return past the stack (log 8). -/
theorem exec_ret_stops {s : State} (h : 16 < s.sp.toNat) : exec .ret s = .fault .stackPointerOutOfRange := by
  have h0 : s.sp ≠ 0 := fun e => by simp [e] at h
  rw [exec, execReturn, if_neg h0, s.top_eq_none h]

/-- Whatever an instruction answers: the halted state of its fault, the state after it, or the model's one stop. -/
theorem exec_outcome (i : Instr) (s : State) :
    (∃ e, s.faultOf i = some e ∧ exec i s = .next (s.halt e)) ∨
      (s.faultOf i = none ∧ exec i s = .next (s.after i)) ∨
      (i = .ret ∧ 16 < s.sp.toNat ∧ exec i s = .fault .stackPointerOutOfRange) := by
  cases hf : s.faultOf i with
  | some e => exact .inl ⟨e, rfl, exec_of_fault hf⟩
  | none =>
    by_cases hsp : i = .ret → s.sp.toNat ≤ 16
    · exact .inr (.inl ⟨rfl, exec_of_noFault hf hsp⟩)
    · obtain ⟨rfl, hlt⟩ := Classical.not_imp.mp hsp
      have hlt := Nat.lt_of_not_le hlt
      exact .inr (.inr ⟨rfl, hlt, exec_ret_stops hlt⟩)

/-- The inversion of `exec`: the next state is the halted state of the fault, or the state after the instruction. -/
theorem exec_fault_or_after {i : Instr} {s t : State} (h : exec i s = .next t) :
    (∃ e, s.faultOf i = some e ∧ t = s.halt e) ∨ (s.faultOf i = none ∧ t = s.after i) := by
  obtain ⟨e, hf, he⟩ | ⟨hf, he⟩ | ⟨-, -, he⟩ := exec_outcome i s <;> rw [he] at h
  · exact .inl ⟨e, hf, (Host.Outcome.next.inj h).symm⟩
  · exact .inr ⟨hf, (Host.Outcome.next.inj h).symm⟩
  · cases h

end Sys2Proof.Machine
end

section
/-! SUPPORT. What an instruction that raises no fault leaves unchanged, one lemma for each state element with its writers
(10_state.md R30 to R45). -/

namespace Sys2Proof.Machine

/-- A wait writes the registers, pc and the draw counter at most (R223). -/
theorem waitKeyPress_frame (c : Nat) (x : RegIndex) (s : State) :
    waitKeyPress c x s =
      { s with v := (waitKeyPress c x s).v, pc := (waitKeyPress c x s).pc, draws := (waitKeyPress c x s).draws } := by
  obtain ⟨-, e⟩ | ⟨k, -, e⟩ := waitKeyPress_cases c x s <;> rw [e]
  rfl

@[simp] theorem waitKeyPress_i (c : Nat) (x : RegIndex) (s : State) : (waitKeyPress c x s).i = s.i := by
  rw [waitKeyPress_frame]
@[simp] theorem waitKeyPress_dt (c : Nat) (x : RegIndex) (s : State) : (waitKeyPress c x s).dt = s.dt := by
  rw [waitKeyPress_frame]
@[simp] theorem waitKeyPress_st (c : Nat) (x : RegIndex) (s : State) : (waitKeyPress c x s).st = s.st := by
  rw [waitKeyPress_frame]
@[simp] theorem waitKeyPress_stack (c : Nat) (x : RegIndex) (s : State) : (waitKeyPress c x s).stack = s.stack := by
  rw [waitKeyPress_frame]
@[simp] theorem waitKeyPress_mem (c : Nat) (x : RegIndex) (s : State) : (waitKeyPress c x s).mem = s.mem := by
  rw [waitKeyPress_frame]
@[simp] theorem waitKeyPress_disp (c : Nat) (x : RegIndex) (s : State) : (waitKeyPress c x s).disp = s.disp := by
  rw [waitKeyPress_frame]
@[simp] theorem waitKeyPress_status (c : Nat) (x : RegIndex) (s : State) : (waitKeyPress c x s).status = s.status := by
  rw [waitKeyPress_frame]

/-- An instruction that raises no fault keeps the status. -/
@[simp] theorem State.after_status (s : State) (i : Instr) : (s.after i).status = s.status := by
  cases i
  all_goals simp [State.after, State.writeLogic, State.writeWithFlag, randomWithMask]

/-- The display is written by ClearDisplay and Draw only (10_state.md R41). -/
theorem State.after_disp {s : State} {i : Instr} (h : (s.after i).disp ≠ s.disp) :
    i = .clearDisplay ∨ ∃ x y n, i = .draw x y n := by
  cases i
  case clearDisplay => exact .inl rfl
  case draw x y n => exact .inr ⟨x, y, n, rfl⟩
  all_goals simp [State.after, State.writeLogic, State.writeWithFlag, randomWithMask] at h

/-- A stack entry is written by Call only (R36). -/
theorem State.after_stack {s : State} {i : Instr} (h : (s.after i).stack ≠ s.stack) : ∃ nnn, i = .call nnn := by
  cases i
  case call nnn => exact ⟨nnn, rfl⟩
  all_goals simp [State.after, State.writeLogic, State.writeWithFlag, randomWithMask] at h

/-- DT is written by StoreDelayTimer only (R38). -/
theorem State.after_dt {s : State} {i : Instr} (h : (s.after i).dt ≠ s.dt) : ∃ x, i = .storeDelayTimer x := by
  cases i
  case storeDelayTimer x => exact ⟨x, rfl⟩
  all_goals simp [State.after, State.writeLogic, State.writeWithFlag, randomWithMask] at h

/-- ST is written by StoreSoundTimer only (R39). -/
theorem State.after_st {s : State} {i : Instr} (h : (s.after i).st ≠ s.st) : ∃ x, i = .storeSoundTimer x := by
  cases i
  case storeSoundTimer x => exact ⟨x, rfl⟩
  all_goals simp [State.after, State.writeLogic, State.writeWithFlag, randomWithMask] at h

/-- I is written by LoadIndex, AddToIndex, LoadSprite and, where the parameter says so, the bulk transfers (R32). -/
theorem State.after_i {s : State} {i : Instr} (h : (s.after i).i ≠ s.i) :
    (∃ nnn, i = .loadIndex nnn) ∨ (∃ x, i = .addToIndex x ∨ i = .loadSprite x) ∨
      (s.params.loadStoreIncrementsI = true ∧ ∃ x, i = .storeRegisters x ∨ i = .loadRegisters x) := by
  cases i
  case loadIndex nnn => exact .inl ⟨nnn, rfl⟩
  case addToIndex x => exact .inr (.inl ⟨x, .inl rfl⟩)
  case loadSprite x => exact .inr (.inl ⟨x, .inr rfl⟩)
  case storeRegisters x =>
    refine .inr (.inr ⟨?_, x, .inl rfl⟩)
    by_contra hp
    simp [State.after, hp] at h
  case loadRegisters x =>
    refine .inr (.inr ⟨?_, x, .inr rfl⟩)
    by_contra hp
    simp [State.after, hp] at h
  all_goals simp [State.after, State.writeLogic, State.writeWithFlag, randomWithMask] at h

/-- Memory is written by the two stores only (20_memory.md R78). -/
theorem State.after_mem {s : State} {i : Instr} (h : (s.after i).mem ≠ s.mem) :
    ∃ x, i = .storeBcd x ∨ i = .storeRegisters x := by
  cases i
  case storeBcd x => exact ⟨x, .inl rfl⟩
  case storeRegisters x => exact ⟨x, .inr rfl⟩
  all_goals simp [State.after, State.writeLogic, State.writeWithFlag, randomWithMask] at h

/-- A flag write leaves every register but VF. -/
theorem State.reg_setFlag_of_ne {s : State} {z : RegIndex} {f : Byte} (hz : z ≠ 0xF) : (s.setFlag f).reg z = s.reg z :=
  (s.reg_setFlag z f).trans (if_neg hz)

/-- A register write leaves every other register. -/
theorem State.reg_setReg_of_ne {s : State} {x z : RegIndex} {b : Byte} (hz : z ≠ x) : (s.setReg x b).reg z = s.reg z :=
  (s.reg_setReg x z b).trans (if_neg hz)

/-- A register written with a flag behind it is the destination or VF. -/
theorem State.reg_writeWithFlag_of_ne {s : State} {x z : RegIndex} {b f : Byte} (hx : z ≠ x) (hf : z ≠ 0xF) :
    (s.writeWithFlag x b f).reg z = s.reg z :=
  (State.reg_setFlag_of_ne hf).trans (State.reg_setReg_of_ne hx)

/-- A logic result is written to the destination and, with LOGIC_RESETS_VF, to VF. -/
theorem State.reg_writeLogic_of_ne {s : State} {x z : RegIndex} {b : Byte} (hx : z ≠ x)
    (hf : ¬(s.params.logicResetsVF = true ∧ z = 0xF)) : (s.writeLogic x b).reg z = s.reg z := by
  simpa [State.writeLogic, State.reg_logicFlag, hx] using fun h1 h2 => absurd ⟨h1, h2⟩ hf

/-- A general register is written as the named destination, or is VF and written as the flag (10_state.md R30, R31). -/
theorem State.after_reg {s : State} {i : Instr} {z : RegIndex} (hd : ¬NamesDestination i z)
    (hf : ¬(z = 0xF ∧ WritesVFAsFlag s.params i)) : (s.after i).reg z = s.reg z := by
  cases i
  case or | and | xor => exact State.reg_writeLogic_of_ne hd fun ⟨hp, hz⟩ => hf ⟨hz, hp⟩
  case add | subtract | subtractReverse | shiftRight | shiftLeft =>
    exact State.reg_writeWithFlag_of_ne hd fun hz => hf ⟨hz, trivial⟩
  case draw => exact State.reg_setFlag_of_ne fun hz => hf ⟨hz, trivial⟩
  case waitKeyPress x =>
    have hz : z ≠ x := hd
    obtain ⟨-, e⟩ | ⟨k, -, e⟩ := waitKeyPress_cases (Config.freeChoice s.draws) x s <;> simp [State.after, e, hz]
  case loadByte | addByte | loadRegister | loadDelayTimer | randomWithMask => exact State.reg_setReg_of_ne hd
  case loadRegisters x =>
    have hz : ¬z ≤ x := hd
    simp [State.after, hz]
  all_goals simp [State.after]

end Sys2Proof.Machine
end

section
/-! SUPPORT. The statements about every instruction: which can fault (60_exceptions.md R261, R262), which write memory (20_memory.md
R78), and which write each other element of the state (10_state.md). -/

namespace Sys2Proof.Machine

/-! ### What belongs to the outside, and the stack -/

/-- No instruction writes the key history, the parameters or the pending operations (10_state.md R43). -/
theorem exec_keepsInputs {i : Instr} {s t : State} (h : exec i s = .next t) :
    t.keyPrev = s.keyPrev ∧ t.params = s.params ∧ t.driver = s.driver := by
  obtain ⟨nnn, -, hc⟩ | ⟨-, hr⟩ | hk := exec_cases h
  · obtain ⟨-, rfl⟩ | ⟨-, rfl⟩ := execCall_cases hc <;> exact ⟨rfl, rfl, rfl⟩
  · obtain ⟨-, rfl⟩ | ⟨-, a, -, rfl⟩ := execReturn_cases hr <;> exact ⟨rfl, rfl, rfl⟩
  · exact ⟨hk.keyPrev, hk.params, hk.driver⟩

/-- No instruction but Call writes a stack entry (R36). -/
theorem exec_stack {i : Instr} {s t : State} (h : exec i s = .next t) (hw : t.stack ≠ s.stack) : ∃ nnn, i = .call nnn := by
  obtain ⟨e, -, rfl⟩ | ⟨-, rfl⟩ := exec_fault_or_after h
  · exact absurd rfl hw
  · exact State.after_stack hw

/-! ### The faults -/

/-- The fault an instruction raises is one of the listed ones, under its own condition (60_exceptions.md R261). -/
theorem State.faultOf_cases {s : State} {i : Instr} {e : HaltReason} (h : s.faultOf i = some e) :
    ((∃ nnn, i = .call nnn) ∧ e = .stackOverflow ∧ 16 ≤ s.sp.toNat) ∨
      (i = .ret ∧ e = .stackUnderflow ∧ s.sp = 0) ∨
      ((∃ x, i = .skipIfPressed x ∨ i = .skipIfNotPressed x) ∧ ∃ v : Byte, e = .keyIndexOutOfRange v ∧ 0xF < v.toNat) ∨
      ((∃ x y n, i = .draw x y n ∨ i = .storeBcd x ∨ i = .storeRegisters x ∨ i = .loadRegisters x) ∧ e = s.rangeFault) := by
  cases i
  case call nnn =>
    obtain ⟨hc, he⟩ := Option.ite_none_right_eq_some.mp h
    exact .inl ⟨⟨nnn, rfl⟩, (Option.some.inj he).symm, hc⟩
  case ret =>
    obtain ⟨hc, he⟩ := Option.ite_none_right_eq_some.mp h
    exact .inr (.inl ⟨rfl, (Option.some.inj he).symm, hc⟩)
  case skipIfPressed x | skipIfNotPressed x =>
    obtain ⟨hc, he⟩ := Option.ite_none_right_eq_some.mp h
    obtain ⟨-, k, hk, -⟩ | ⟨hlt, -⟩ := keyOf_cases (s.reg x)
    · simp [hk] at hc
    · exact .inr (.inr (.inl ⟨⟨x, by simp⟩, s.reg x, (Option.some.inj he).symm, hlt⟩))
  case draw x y n =>
    obtain ⟨-, he⟩ := Option.ite_none_right_eq_some.mp h
    exact .inr (.inr (.inr ⟨⟨x, y, n, .inl rfl⟩, (Option.some.inj he).symm⟩))
  case storeBcd x | storeRegisters x | loadRegisters x =>
    obtain ⟨-, he⟩ := Option.ite_none_right_eq_some.mp h
    exact .inr (.inr (.inr ⟨⟨x, 0, 0, by simp⟩, (Option.some.inj he).symm⟩))
  all_goals cases h

/-- Settles O19: the inversion of `exec`, and the list of the faults. -/
theorem onlyTheListedInstructionsFault : Obligations.OnlyTheListedInstructionsFault := by
  intro i s t h
  obtain ⟨e, hf, rfl⟩ | ⟨-, rfl⟩ := exec_fault_or_after h
  · obtain ⟨⟨nnn, hi⟩, rfl, hsp⟩ | ⟨hi, rfl, hsp⟩ | ⟨hi, v, rfl, hv⟩ | ⟨hi, rfl⟩ := State.faultOf_cases hf
    · exact .inr (.inl ⟨nnn, hi, rfl, hsp⟩)
    · exact .inr (.inr (.inl ⟨hi, rfl, hsp⟩))
    · exact .inr (.inr (.inr (.inl ⟨hi, v, rfl, hv⟩)))
    · exact .inr (.inr (.inr (.inr ⟨hi, rfl⟩)))
  · exact .inl (s.after_status i)

/-! ### Writes to memory -/

theorem State.faultOf_draw_none {s : State} {x y : RegIndex} {n : Nibble} :
    s.faultOf (.draw x y n) = none ↔ n = 0 ∨ s.i.toNat + n.toNat ≤ 0x1000 := by
  have hf : s.faultOf (.draw x y n) = none ↔ s.outOfRange n.toNat = false := by simp [State.faultOf]
  have hn : n.toNat = 0 ↔ n = 0 := BitVec.toNat_inj (y := 0)
  rw [hf, State.inRange_iff, hn]

theorem State.faultOf_storeBcd_none {s : State} {x : RegIndex} :
    s.faultOf (.storeBcd x) = none ↔ s.i.toNat + 3 ≤ 0x1000 := by
  simp [State.faultOf, State.inRange_iff]

theorem State.faultOf_storeRegisters_none {s : State} {x : RegIndex} :
    s.faultOf (.storeRegisters x) = none ↔ s.i.toNat + x.toNat < 0x1000 := by
  have hf : s.faultOf (.storeRegisters x) = none ↔ s.outOfRange (transferLength x) = false := by
    simp [State.faultOf]
  rw [hf, State.inRange_iff, transferLength]
  omega

theorem State.faultOf_loadRegisters_none {s : State} {x : RegIndex} :
    s.faultOf (.loadRegisters x) = none ↔ s.i.toNat + x.toNat < 0x1000 :=
  State.faultOf_storeRegisters_none

/-- An instruction leaves memory, or it is a store, which writes a run of bytes from I on within the image
(20_memory.md R70, R76, R78). -/
theorem exec_mem {i : Instr} {s t : State} (h : exec i s = .next t) :
    t.mem = s.mem ∨
      (∃ x, i = .storeBcd x ∨ i = .storeRegisters x) ∧
        ∃ bs : List Byte, s.i.toNat + bs.length ≤ 0x1000 ∧ t.mem = Memory.writeBytes s.params s.mem s.i.toNat bs := by
  obtain ⟨e, -, rfl⟩ | ⟨hf, rfl⟩ := exec_fault_or_after h
  · exact .inl rfl
  · refine or_iff_not_imp_left.mpr fun hw => ?_
    obtain ⟨x, rfl | rfl⟩ := State.after_mem hw
    · refine ⟨⟨x, .inl rfl⟩, bcdDigits (s.reg x), State.faultOf_storeBcd_none.mp hf, rfl⟩
    · refine ⟨⟨x, .inr rfl⟩, s.regList x, ?_, by simp [State.after, State.ea]⟩
      rw [State.length_regList]
      exact State.faultOf_storeRegisters_none.mp hf

/-- A byte is read from memory and the parameters. -/
theorem State.readByte_congr {s t : State} (hp : t.params = s.params) (hm : t.mem = s.mem) (a : Nat) :
    t.readByte a = s.readByte a := by
  rw [State.readByte, State.readByte, hp, hm]

/-- Settles O20: a run written within the image ends below 0x1000. -/
theorem onlyStoresWriteMemory : Obligations.OnlyStoresWriteMemory := by
  intro i s t h
  obtain ⟨-, hp, -⟩ := exec_keepsInputs h
  obtain hm | ⟨⟨x, hi⟩, bs, hbs, hm⟩ := exec_mem h
  · exact ⟨fun _ => hm, fun a _ => State.readByte_congr hp hm a⟩
  · refine ⟨fun hno => ?_, fun a ha => ?_⟩
    · exact absurd hi (not_or.mpr (hno x))
    · rw [State.readByte, hp, hm]
      exact Memory.read_writeBytes_outside _ _ _ _ _ (.inr (by omega))

/-- The canonical form of memory is kept by every instruction (log 7). -/
theorem exec_keeps_wf {i : Instr} {s t : State} (h : exec i s = .next t) (hwf : Memory.wf s.params s.mem = true) :
    Memory.wf t.params t.mem = true := by
  obtain ⟨-, hp, -⟩ := exec_keepsInputs h
  obtain hm | ⟨-, bs, hbs, hm⟩ := exec_mem h
  · rwa [hp, hm]
  · rw [hp, hm]
    exact Memory.wf_writeBytes _ _ _ _ hbs hwf

/-! ### The other elements -/

/-- Settles O21: a fault writes the status only, and an instruction that completes writes each element by its own writers. -/
theorem eachElementHasItsOwnWriters : Obligations.EachElementHasItsOwnWriters := by
  intro i s t h
  have hin := exec_keepsInputs h
  obtain ⟨e, -, rfl⟩ | ⟨-, rfl⟩ := exec_fault_or_after h
  · simp
  · refine ⟨State.after_disp, fun hw => ?_, exec_stack h, State.after_dt, State.after_st, State.after_i, hin⟩
    obtain e | ⟨-, -, hi⟩ | ⟨-, hi⟩ := exec_sp h
    · exact absurd e hw
    · exact .inr hi
    · exact .inl hi

/-- Settles O22: a fault writes no register, and an instruction that completes writes the listed ones. -/
theorem registersHaveOnlyTheListedWriters : Obligations.RegistersHaveOnlyTheListedWriters := by
  intro i s t z h hw
  by_contra hn
  obtain ⟨hd, hf⟩ := not_or.mp hn
  obtain ⟨e, -, rfl⟩ | ⟨-, rfl⟩ := exec_fault_or_after h
  · exact hw rfl
  · exact hw (State.after_reg hd hf)

end Sys2Proof.Machine
end

section
/-! SUPPORT. The Cycle and the step (60_exceptions.md R260): an equation for each way a Cycle can go, its inversion, and the rule that
a property kept by each operation is kept by every step; then the statements on the Cycle, the faults and the invariants. -/

namespace Sys2Proof.Machine

/-! ### The Cycle, case by case -/

/-- With no pending operation a step is a Cycle (log 5). -/
theorem step_eq_cycle {s : State} (h : s.driver = []) : step s = cycle s := by
  rw [step, h]

/-- A halted machine stays as it is (R260, R264). -/
theorem cycle_halted {s : State} {e : HaltReason} (h : s.status = .halted e) : cycle s = .next s := by
  rw [cycle, h]

/-- A fetch past the end of the image faults (20_memory.md R74). -/
theorem cycle_fetchFault {s : State} (h : s.status = .running) (hpc : 0xFFF ≤ s.pc.toNat) :
    cycle s = .next (s.halt (.addressOutOfRange s.pc.toNat)) := by
  rw [cycle, h, s.fetch_error hpc]
  rfl

/-- A fetched word is decoded and executed (R260). -/
theorem cycle_fetched {s : State} (h : s.status = .running) (hpc : s.pc.toNat < 0xFFF) :
    cycle s = execDecoded (decode s.params.sys0nnn (s.wordAt s.pc.toNat)) s := by
  rw [cycle, h, s.fetch_ok hpc]

/-- Every word decodes to an instruction, a SysCall or nothing: what a Cycle answers from a running state whose fetch is legal. -/
theorem execDecoded_cases {d : Decoded} {s t : State} (h : execDecoded d s = .next t) :
    (∃ w, d = .invalid w ∧ t = s.halt (.invalidOpcode w)) ∨ (∃ nnn, d = .sysCall nnn ∧ t = s.advance.endCycle) ∨
      ∃ i u, d = .instr i ∧ exec i s = .next u ∧ t = u.endCycle := by
  cases d with
  | invalid w => exact .inl ⟨w, rfl, (Host.Outcome.next.inj h).symm⟩
  | sysCall nnn => exact .inr (.inl ⟨nnn, rfl, (Host.Outcome.next.inj h).symm⟩)
  | instr i =>
    rw [execDecoded] at h
    cases hu : exec i s with
    | next u =>
      rw [hu, endOfCycle] at h
      exact .inr (.inr ⟨i, u, rfl, hu, (Host.Outcome.next.inj h).symm⟩)
    | fault f => rw [hu] at h; cases h
    | refused r => rw [hu] at h; cases h

/-- The inversion of a Cycle: a halted machine as it is, a fault of the fetch or the decoder, or what a SysCall or an instruction
answers, with the keys sampled unless it faults. -/
theorem cycle_cases {s t : State} (h : cycle s = .next t) :
    (∃ e, s.status = .halted e ∧ t = s) ∨
      (s.status = .running ∧
        ((∃ e, t = s.halt e) ∨
          (s.pc.toNat < 0xFFF ∧ (t = s.advance.endCycle ∨ ∃ i u, exec i s = .next u ∧ t = u.endCycle)))) := by
  cases hs : s.status with
  | halted e =>
    rw [cycle_halted hs] at h
    exact .inl ⟨e, rfl, (Host.Outcome.next.inj h).symm⟩
  | running =>
    refine .inr ⟨rfl, ?_⟩
    obtain hpc | hpc := Nat.lt_or_ge s.pc.toNat 0xFFF
    · rw [cycle_fetched hs hpc] at h
      obtain ⟨w, -, rfl⟩ | ⟨-, -, rfl⟩ | ⟨i, u, -, hu, rfl⟩ := execDecoded_cases h
      · exact .inl ⟨_, rfl⟩
      · exact .inr ⟨hpc, .inl rfl⟩
      · exact .inr ⟨hpc, .inr ⟨i, u, hu, rfl⟩⟩
    · rw [cycle_fetchFault hs hpc] at h
      exact .inl ⟨_, (Host.Outcome.next.inj h).symm⟩

/-- A Cycle goes on where `sp` is at most 16 (10_state.md R35). -/
theorem exists_cycle_next {s : State} (h : s.sp.toNat ≤ 16) : ∃ t, cycle s = .next t := by
  cases hs : s.status with
  | halted e => exact ⟨s, cycle_halted hs⟩
  | running =>
    obtain hpc | hpc := Nat.lt_or_ge s.pc.toNat 0xFFF
    · rw [cycle_fetched hs hpc]
      cases decode s.params.sys0nnn (s.wordAt s.pc.toNat) with
      | invalid w => exact ⟨_, rfl⟩
      | sysCall nnn => exact ⟨_, rfl⟩
      | instr i =>
        obtain ⟨e, -, he⟩ | ⟨-, he⟩ | ⟨-, hlt, -⟩ := exec_outcome i s
        · exact ⟨_, congrArg endOfCycle he⟩
        · exact ⟨_, congrArg endOfCycle he⟩
        · omega
    · exact ⟨_, cycle_fetchFault hs hpc⟩

/-- Settles O18: `exec` has one stop, and a Cycle that meets the bound on `sp` does not reach it; the other operations always answer. -/
theorem onlyReturnPastTheStackStops : Obligations.OnlyReturnPastTheStackStops := by
  refine ⟨fun s hsp => ?_, fun i s => ?_⟩
  · cases hd : s.driver with
    | nil => exact step_eq_cycle hd ▸ exists_cycle_next hsp
    | cons op ops =>
      rw [step, hd]
      cases op with
      | cycle => exact exists_cycle_next (s := s.setDriver ops) hsp
      | clockTick | setKey | reset | launch => exact ⟨_, rfl⟩
  · obtain ⟨e, -, he⟩ | ⟨-, he⟩ | hstop := exec_outcome i s
    · exact .inl ⟨_, he⟩
    · exact .inl ⟨_, he⟩
    · exact .inr hstop

/-! ### Properties kept by every step -/

/-- The property is kept by each thing a step is made of. -/
structure KeptByOperations (P : State → Prop) : Prop where
  setDriver : ∀ s ops, P s → P (s.setDriver ops)
  clockTick : ∀ s, P s → P s.clockTick
  setKey : ∀ s k b, P s → P (s.setKey k b)
  reset : ∀ s, P s → P s.doReset
  storeRom : ∀ s rom, rom.length ≤ 3584 → P s → P (s.storeBytes 0x200 rom)
  halt : ∀ s e, P s → P (s.halt e)
  sampleKeys : ∀ s, P s → P s.sampleKeys
  sysCall : ∀ s, s.pc.toNat < 0xFFF → P s → P s.advance
  instr : ∀ i s t, s.pc.toNat < 0xFFF → P s → exec i s = .next t → P t

/-- The end of a Cycle samples the keys or nothing. -/
theorem KeptByOperations.endCycle {P : State → Prop} (hP : KeptByOperations P) (s : State) (h : P s) : P s.endCycle := by
  cases hs : s.status with
  | running =>
    rw [s.endCycle_running hs]
    exact hP.sampleKeys s h
  | halted e => rwa [s.endCycle_halted e hs]

/-- What a Cycle is made of keeps the property, so a Cycle does. -/
theorem KeptByOperations.cycle {P : State → Prop} (hP : KeptByOperations P) {s t : State} (h : P s)
    (hc : Machine.cycle s = .next t) : P t := by
  obtain ⟨-, -, rfl⟩ | ⟨-, ⟨e, rfl⟩ | ⟨hpc, rfl | ⟨i, u, hu, rfl⟩⟩⟩ := cycle_cases hc
  · exact h
  · exact hP.halt s e h
  · exact hP.endCycle _ (hP.sysCall s hpc h)
  · exact hP.endCycle _ (hP.instr i s u hpc h hu)

/-- LoadRom keeps the property: it halts, or stores a ROM that fits. -/
theorem KeptByOperations.loadRom {P : State → Prop} (hP : KeptByOperations P) (rom : List Byte) (s : State) (h : P s) :
    P (s.loadRom rom) := by
  obtain ⟨-, e⟩ | ⟨hlen, e⟩ := s.loadRom_cases rom <;> rw [e]
  · exact hP.halt s _ h
  · exact hP.storeRom s rom hlen h

/-- Every step keeps the property. -/
theorem KeptByOperations.step {P : State → Prop} (hP : KeptByOperations P) {s t : State} (h : P s)
    (hs : Machine.step s = .next t) : P t := by
  cases hd : s.driver with
  | nil => exact hP.cycle h (step_eq_cycle hd ▸ hs)
  | cons op ops =>
    rw [Machine.step, hd] at hs
    have h' := hP.setDriver s ops h
    cases op with
    | cycle => exact hP.cycle h' hs
    | clockTick => exact Host.Outcome.next.inj hs ▸ hP.clockTick _ h'
    | setKey k b => exact Host.Outcome.next.inj hs ▸ hP.setKey _ k b h'
    | reset => exact Host.Outcome.next.inj hs ▸ hP.reset _ h'
    | launch rom => exact Host.Outcome.next.inj hs ▸ hP.loadRom rom _ (hP.reset _ h')

/-! ### The invariant -/

/-- Legal parameters, the canonical form and the bound on `sp`, operation by operation. -/
theorem inv_keptByOperations : KeptByOperations State.Inv where
  setDriver _ _ h := h
  clockTick _ h := h
  setKey _ _ _ h := h
  reset s h := ⟨h.1, Memory.wf_nil s.params, Nat.zero_le _⟩
  storeRom s rom hlen h := by
    obtain ⟨hp, hwf, hsp⟩ := h
    exact ⟨hp, Memory.wf_writeBytes _ _ _ _ (by simp only [memorySize_eq]; omega) hwf, hsp⟩
  halt _ _ h := h
  sampleKeys _ h := h
  sysCall _ _ h := h
  instr i s t _ h ht := by
    obtain ⟨hp, hwf, hsp⟩ := h
    obtain ⟨-, hparams, -⟩ := exec_keepsInputs ht
    exact ⟨hparams ▸ hp, exec_keeps_wf ht hwf, exec_sp_le hsp ht⟩

/-- Settles O16: each operation keeps the three parts of the invariant. -/
theorem everyStepKeepsTheInvariant : Obligations.EveryStepKeepsTheInvariant :=
  fun _ _ h hs => inv_keptByOperations.step h hs

/-! ### The bounds on pc and the stacked addresses (10_state.md R34) -/

/-- Where an instruction that raises no fault can send pc: nowhere, to the next or the next but one instruction, to a literal
address, past it by a byte, or to the newest stacked address. -/
theorem State.after_pc (s : State) (i : Instr) :
    (s.after i).pc = s.pc ∨ (s.after i).pc = s.pc + 2 ∨ (s.after i).pc = s.pc + 4 ∨
      (s.after i).pc.toNat ≤ 0x10FE ∨ (i = .ret ∧ (s.after i).pc = s.top.getD 0) := by
  have hskip (c : Bool) : (s.skipIf c).pc = s.pc + 2 ∨ (s.skipIf c).pc = s.pc + 4 := by
    cases c
    · exact .inl rfl
    · exact .inr rfl
  cases i
  case jump nnn | call nnn =>
    have hn := nnn.isLt
    refine .inr (.inr (.inr (.inl ?_)))
    simp only [State.after, State.setPc_pc, toNat_zextAddr]
    omega
  case jumpWithOffset nnn =>
    have hn := nnn.isLt
    have hb := (s.reg 0).isLt
    refine .inr (.inr (.inr (.inl ?_)))
    simp only [State.after, State.setPc_pc, toNat_zextByte_add_zextAddr]
    omega
  case ret => exact .inr (.inr (.inr (.inr ⟨rfl, rfl⟩)))
  case skipEqualByte | skipNotEqualByte | skipEqualRegister | skipNotEqualRegister | skipIfPressed | skipIfNotPressed =>
    obtain h | h := hskip _
    · exact .inr (.inl h)
    · exact .inr (.inr (.inl h))
  case waitKeyPress x =>
    obtain ⟨-, e⟩ | ⟨k, -, e⟩ := waitKeyPress_cases (Config.freeChoice s.draws) x s
    · exact .inl (congrArg State.pc e)
    · exact .inr (.inl (congrArg State.pc e))
  all_goals exact .inr (.inl (by simp [State.after, State.writeLogic, State.writeWithFlag, randomWithMask]))

/-- The newest stacked address meets the bound of the stack. -/
theorem State.toNat_top_le {s : State} (h : ∀ j : Fin 16, (s.stackAt j).toNat ≤ 0x1000) : (s.top.getD 0).toNat ≤ 0x1000 := by
  unfold State.top
  obtain hj | hj := Nat.lt_or_ge (s.sp - 1).toNat 16
  · rw [Vector.getElem?_eq_getElem hj]
    exact h ⟨_, hj⟩
  · rw [Vector.getElem?_eq_none hj]
    exact Nat.zero_le _

/-- An instruction that the machine could fetch keeps the bounds: what Call stacks is at most 2 past the fetch's bound. -/
theorem exec_keeps_addressInv {i : Instr} {s t : State} (hpc : s.pc.toNat < 0xFFF) (h : s.AddressInv)
    (ht : exec i s = .next t) : t.AddressInv := by
  obtain ⟨hpcInv, hstack⟩ := h
  have hnext : (s.pc + 2).toNat ≤ 0x1000 := by bv_omega
  have hskip : (s.pc + 4).toNat ≤ 0x10FE := by bv_omega
  refine ⟨?_, fun j => ?_⟩
  · obtain ⟨e, -, rfl⟩ | ⟨-, rfl⟩ := exec_fault_or_after ht
    · exact hpcInv
    · obtain e | e | e | hle | ⟨-, e⟩ := s.after_pc i
      · rwa [e]
      · rw [e]; omega
      · rwa [e]
      · exact hle
      · have := State.toNat_top_le hstack
        rw [e]; omega
  · by_cases hw : t.stack = s.stack
    · exact (congrArg (fun v : Vector Word 16 => v[j].toNat) hw).trans_le (hstack j)
    · obtain ⟨nnn, rfl⟩ := exec_stack ht hw
      obtain ⟨-, rfl⟩ | ⟨-, rfl⟩ := execCall_cases ht
      · exact hstack j
      · rw [State.setPc_stackAt, State.stackAt_push]
        split
        · exact hnext
        · exact hstack j

/-- The bounds, operation by operation. -/
theorem addressInv_keptByOperations : KeptByOperations State.AddressInv where
  setDriver _ _ h := h
  clockTick _ h := h
  setKey _ _ _ h := h
  reset s _ := ⟨by simp [State.doReset, State.resetWith], fun j => by simp [State.stackAt, State.doReset, State.resetWith]⟩
  storeRom _ _ _ h := h
  halt _ _ h := h
  sampleKeys _ h := h
  sysCall s hpc h := ⟨by rw [State.advance_pc]; bv_omega, h.2⟩
  instr _ _ _ hpc h ht := exec_keeps_addressInv hpc h ht

/-- Settles O17: each operation keeps the bounds; a fetch bounds pc before any instruction moves it. -/
theorem programCounterNeverWraps : Obligations.ProgramCounterNeverWraps :=
  fun _ _ h hs => addressInv_keptByOperations.step h hs

end Sys2Proof.Machine
end

section
/-! SUPPORT. The statements on the step, on faults and on halting (60_exceptions.md R260 to R264; 45_input_timers.md R230). -/

namespace Sys2Proof.Machine

/-! ### One step (R260) -/

/-- What a Cycle answers when the word it fetches decodes to an instruction. -/
theorem step_instr {s : State} {i : Instr} (hd : s.driver = []) (hs : s.status = .running) (hpc : s.pc.toNat < 0xFFF)
    (hi : decode s.params.sys0nnn (s.wordAt s.pc.toNat) = .instr i) : step s = endOfCycle (exec i s) := by
  rw [step_eq_cycle hd, cycle_fetched hs hpc, hi, execDecoded]

/-- Settles O6: the equations of a Cycle, and the end of a Cycle by the status the instruction leaves. -/
theorem stepRunsTheDecodedInstruction : Obligations.StepRunsTheDecodedInstruction := by
  intro s hd
  refine ⟨fun e he => ?_, fun hs hpc => ?_, fun hs hpc w hw => ?_,
    fun hs hpc i hi => ⟨fun t ht hr => ?_, fun t e ht he => ?_, fun f hf => ?_⟩⟩
  · rw [step_eq_cycle hd, cycle_halted he]
  · rw [step_eq_cycle hd, cycle_fetchFault hs hpc]
  · rw [step_eq_cycle hd, cycle_fetched hs hpc, hw, execDecoded, raise]
  · rw [step_instr hd hs hpc hi, ht, endOfCycle, t.endCycle_running hr, State.sampleKeys]
  · rw [step_instr hd hs hpc hi, ht, endOfCycle, t.endCycle_halted e he]
  · rw [step_instr hd hs hpc hi, hf, endOfCycle]

/-- Settles O7: each operation is performed on the state without it, and only a Cycle looks at what is pending. -/
theorem stepTakesThePendingOperation : Obligations.StepTakesThePendingOperation := by
  intro s ops
  refine ⟨rfl, rfl, fun _ _ => rfl, rfl, fun rom => ?_⟩
  have hlaunch : ({ s with driver := ops } : State).launch rom = { s.launch rom with driver := ops } := by
    unfold State.launch State.loadRom
    split <;> rfl
  exact congrArg Host.Outcome.next hlaunch

/-- The sampling of the keys leaves the status. -/
@[simp] theorem State.endCycle_status (s : State) : s.endCycle.status = s.status := by
  cases hs : s.status with
  | running => rw [s.endCycle_running hs, State.sampleKeys_status, hs]
  | halted e => rw [s.endCycle_halted e hs, hs]

/-- Settles O8: a Cycle that ends halted ends in the fault of the fetch, of the decoder or of the instruction, each of which is taken
before anything is written. -/
theorem faultsArePrecise : Obligations.FaultsArePrecise := by
  intro s t e ⟨hs, hd⟩ hstep he
  rw [step_eq_cycle hd] at hstep
  obtain ⟨e', hh, -⟩ | ⟨-, ⟨e', rfl⟩ | ⟨-, rfl | ⟨i, u, hu, rfl⟩⟩⟩ := cycle_cases hstep
  · rw [hs] at hh; cases hh
  · obtain rfl : e' = e := Status.halted.inj he
    rfl
  · rw [State.endCycle_status, State.advance_status, hs] at he; cases he
  · rw [State.endCycle_status] at he
    rw [u.endCycle_halted e he]
    obtain ⟨e', -, rfl⟩ | ⟨-, rfl⟩ := exec_fault_or_after hu
    · obtain rfl : e' = e := Status.halted.inj he
      rfl
    · rw [s.after_status, hs] at he; cases he

/-! ### Halted (R264) -/

/-- A tick takes a timer one toward zero, never below (45_input_timers.md R230). -/
theorem toNat_tickDown (b : Byte) : (tickDown b).toNat = b.toNat - 1 := by
  unfold tickDown
  split
  · next h => simp [h]
  · next h => bv_omega

/-- Settles O13: a tick of each timer. -/
theorem clockTickCountsTheTimersDown : Obligations.ClockTickCountsTheTimersDown :=
  fun s => ⟨toNat_tickDown s.dt, toNat_tickDown s.st, rfl⟩

/-- A run whose first step goes on is the run from there. -/
theorem run_succ {s t : State} (k : Nat) (h : step s = .next t) : core.run (k + 1) s = core.run k t := by
  have hcore : core.step s = .next t := h
  simp only [Host.Core.run, hcore]

/-- What an operation of the outside other than Reset and launch does to a halted machine: the timers at most one down, the keys, and
the operation is done. -/
theorem step_halted {s : State} {e : HaltReason} {op : DriverOp} {ops : List DriverOp} (hs : s.status = .halted e)
    (hd : s.driver = op :: ops) (hop : op = .cycle ∨ op = .clockTick ∨ ∃ k b, op = .setKey k b) :
    ∃ t, step s = .next t ∧ t = { s with dt := t.dt, st := t.st, keys := t.keys, driver := ops } ∧
      t.dt.toNat ≤ s.dt.toNat ∧ t.st.toNat ≤ s.st.toNat := by
  rw [step, hd]
  obtain rfl | rfl | ⟨k, b, rfl⟩ := hop
  · exact ⟨_, cycle_halted (s := s.setDriver ops) hs, rfl, le_rfl, le_rfl⟩
  · refine ⟨_, rfl, rfl, ?_, ?_⟩
    · exact (toNat_tickDown s.dt).trans_le (Nat.sub_le ..)
    · exact (toNat_tickDown s.st).trans_le (Nat.sub_le ..)
  · exact ⟨_, rfl, rfl, le_rfl, le_rfl⟩

/-- Settles O9, by induction on the pending operations. -/
theorem haltedIsLeftOnlyByReset : Obligations.HaltedIsLeftOnlyByReset := by
  intro ops
  induction ops with
  | nil =>
    intro s t e _ hd _ hrun
    obtain rfl : s = t := Host.Outcome.next.inj hrun
    exact ⟨by rw [← hd], le_rfl, le_rfl⟩
  | cons op ops ih =>
    intro s t e hs hd hops hrun
    obtain ⟨hop, hrest⟩ := List.forall_mem_cons.mp hops
    obtain ⟨u, hstep, hu, hdt, hst⟩ := step_halted hs hd hop
    rw [List.length_cons, run_succ _ hstep] at hrun
    obtain ⟨ht, hdt', hst'⟩ := ih u t e (by rw [hu]; exact hs) (by rw [hu]) hrest hrun
    refine ⟨?_, hdt'.trans hdt, hst'.trans hst⟩
    rw [ht, hu]

/-! ### The end of a run (70_reset_and_hazards.md R316) -/

/-- A word that is its own Jump: `0x1000` or'ed with an address below 0x1000. -/
theorem or_jump_eq_encode {pc : Word} (h : pc.toNat ≤ 0xFFF) : 0x1000 ||| pc = encode (.jump (fieldNNN pc)) := by
  have hop : fieldOp pc = 0 := by
    apply BitVec.eq_of_toNat_eq
    rw [fieldOp_toNat]
    show _ / 4096 = 0
    omega
  calc 0x1000 ||| pc = packNNN 0x1 0 ||| packNNN 0 (fieldNNN pc) := by rw [← hop, packNNN_fields]; rfl
    _ = packNNN (0x1 ||| 0) (0 ||| fieldNNN pc) := BitVec.or_append
    _ = packNNN 0x1 (fieldNNN pc) := by simp

/-- From a good end a step samples the keys and nothing else: the Jump goes to its own address (R140). -/
theorem step_of_endsWell {s : State} (h : s.EndsWell) (hd : s.driver = []) : step s = .next s.sampleKeys := by
  obtain ⟨hs, hpc, hw⟩ := h
  have hi : decode s.params.sys0nnn (s.wordAt s.pc.toNat) = .instr (.jump (fieldNNN s.pc)) := by
    rw [hw, or_jump_eq_encode (by omega), decode_encode]
  have htarget : zextAddr (fieldNNN s.pc) = s.pc := by
    apply BitVec.eq_of_toNat_eq
    rw [toNat_zextAddr, fieldNNN_toNat]
    omega
  have hexec : exec (.jump (fieldNNN s.pc)) s = .next s := by
    show Host.Outcome.next (s.setPc (zextAddr (fieldNNN s.pc))) = _
    rw [htarget]
    rfl
  rw [step_instr hd hs (by omega) hi, hexec, endOfCycle, s.endCycle_running hs]

/-- Settles O58, by induction on the number of further Cycles: the state with its keys sampled is a good end too. -/
theorem aGoodEndIsAFixedPoint : Obligations.AGoodEndIsAFixedPoint := by
  intro k
  induction k with
  | zero => exact fun s h hd => run_succ 0 (step_of_endsWell h hd)
  | succ k ih =>
    intro s h hd
    rw [run_succ _ (step_of_endsWell h hd)]
    exact ih s.sampleKeys h hd

end Sys2Proof.Machine
end

section
/-! SUPPORT. The memory image after Reset, LoadRom and launch (70_reset_and_hazards.md R300, R304, R307), and the uniqueness of its
canonical form (log 7). -/

namespace Sys2Proof.Machine

/-! ### Reset -/

/-- What Reset leaves in the font's 80 bytes (R300). -/
theorem initialByte_font (p : Config.Params) (k : Fin 80) : initialByte p (p.fontBase.toNat + k.val) = p.fontData[k] := by
  simp [initialByte]

/-- What Reset leaves beside the font (R300). -/
theorem initialByte_beside (p : Config.Params) {a : Nat} (h : a < p.fontBase.toNat ∨ p.fontBase.toNat + 80 ≤ a) :
    initialByte p a = 0 := by
  unfold initialByte
  split
  · rw [Vector.getElem?_eq_none (by omega)]
    rfl
  · rfl

/-- Settles O10: the record of `resetWith`, read element by element, and the font. -/
theorem resetGivesEveryElementItsValue : Obligations.ResetGivesEveryElementItsValue := by
  intro s
  refine ⟨rfl, ?_, rfl, rfl, rfl, rfl, rfl, ?_, ?_, ?_, ?_, rfl, initialByte_font s.params,
    fun a ha => initialByte_beside s.params ha⟩
  · intro x; simp [State.reg, State.doReset, State.resetWith]
  · intro j; simp [State.stackAt, State.doReset, State.resetWith]
  · intro r c; simp [State.pixel, State.doReset, State.resetWith]
  · intro k; simp [State.key, State.doReset, State.resetWith]
  · intro k; simp [State.prevKey, State.doReset, State.resetWith]

/-- Settles O15: the default parameters are legal, the list is empty, and every number is its reset value. -/
theorem invariantsHoldAtReset : Obligations.InvariantsHoldAtReset :=
  ⟨⟨by decide, Memory.wf_nil _, by decide⟩, by decide, fun j => by simp [State.stackAt, State.reset, State.resetWith]⟩

/-! ### LoadRom and launch -/

/-- A ROM that fits is stored at 0x200 (R304). -/
theorem State.loadRom_of_fits {rom : List Byte} (s : State) (h : rom.length ≤ 3584) :
    s.loadRom rom = s.storeBytes 0x200 rom := by
  obtain ⟨hlt, -⟩ | ⟨-, e⟩ := s.loadRom_cases rom
  · omega
  · exact e

/-- Settles O11: a store at 0x200, or the fault. -/
theorem loadRomCopiesOrHalts : Obligations.LoadRomCopiesOrHalts := by
  intro rom s
  refine ⟨fun hlen => ?_, fun hlen => ?_⟩
  · rw [s.loadRom_of_fits hlen]
    exact ⟨fun k hk => s.readByte_storeBytes_inside _ k rom hk, fun a ha => s.readByte_storeBytes_outside _ a rom ha, rfl⟩
  · obtain ⟨-, e⟩ | ⟨hle, -⟩ := s.loadRom_cases rom
    · exact e
    · omega

/-- Settles O12: a store at 0x200 over what Reset leaves, where the default font ends far below. -/
theorem launchStateHoldsFontAndRom : Obligations.LaunchStateHoldsFontAndRom := by
  intro rom hlen
  obtain ⟨-, hreg, -, -, -, -, -, -, hpixel, hkey, -, -, hfont, hzero⟩ := resetGivesEveryElementItsValue State.reset
  have hbase : State.reset.params.fontBase.toNat = 0 := by decide
  have hlaunch : launched rom = State.reset.doReset.storeBytes 0x200 rom := State.loadRom_of_fits _ hlen
  have houtside {a : Nat} (ha : a < 0x200 ∨ 0x200 + rom.length ≤ a) :
      (State.reset.doReset.storeBytes 0x200 rom).readByte a = State.reset.doReset.readByte a :=
    State.readByte_storeBytes_outside _ _ _ _ ha
  rw [hlaunch]
  refine ⟨rfl, rfl, rfl, hreg, rfl, rfl, rfl, hpixel, hkey, fun k => ?_, fun k hk => ?_, fun a ha => ?_, ?_⟩
  · have hk := hfont k
    rw [hbase, Nat.zero_add] at hk
    rw [houtside (.inl (by omega)), hk]
    rfl
  · exact State.readByte_storeBytes_inside _ _ _ _ hk
  · rw [houtside (by omega), hzero a (by omega)]
  · exact inv_keptByOperations.storeRom _ _ hlen (inv_keptByOperations.reset _ invariantsHoldAtReset.1)

/-! ### The canonical form -/

theorem Memory.wfFrom_cons {p : Config.Params} {lo k : Nat} {b : Byte} {m : Memory} :
    Memory.wfFrom p lo ((k, b) :: m) = true ↔
      lo ≤ k ∧ k < memorySize ∧ b ≠ initialByte p k ∧ Memory.wfFrom p (k + 1) m = true := by
  simp [Memory.wfFrom, and_assoc]

/-- Below its first address a canonical list holds nothing. -/
theorem Memory.find_of_wfFrom {p : Config.Params} {m : Memory} {lo a : Nat} (h : Memory.wfFrom p lo m = true) (ha : a < lo) :
    Memory.find m a = none := by
  induction m generalizing lo with
  | nil => rfl
  | cons e m ih =>
    obtain ⟨k, b⟩ := e
    obtain ⟨hlo, -, -, hm⟩ := Memory.wfFrom_cons.mp h
    rw [Memory.find, if_neg (by omega)]
    exact ih hm (by omega)

/-- Below its first address a canonical memory reads as Reset leaves it. -/
theorem Memory.read_of_wfFrom {p : Config.Params} {m : Memory} {lo a : Nat} (h : Memory.wfFrom p lo m = true) (ha : a < lo) :
    Memory.read p m a = initialByte p a := by
  rw [Memory.read, Memory.find_of_wfFrom h ha, Option.getD_none]

/-- A listed byte reads at its own address; the rest of the list is read at every other. -/
theorem Memory.read_cons (p : Config.Params) (m : Memory) (k a : Nat) (b : Byte) :
    Memory.read p ((k, b) :: m) a = if k = a then b else Memory.read p m a := by
  unfold Memory.read
  rw [Memory.find]
  split <;> rfl

/-- Two canonical memories that read alike: neither lists an address below the other's first. -/
theorem Memory.le_of_read_eq {p : Config.Params} {m m' : Memory} {lo lo' k : Nat} {b : Byte}
    (h : Memory.wfFrom p lo ((k, b) :: m) = true) (h' : Memory.wfFrom p lo' m' = true)
    (hread : ∀ a, Memory.read p ((k, b) :: m) a = Memory.read p m' a) : lo' ≤ k := by
  by_contra hlt
  obtain ⟨-, -, hb, -⟩ := Memory.wfFrom_cons.mp h
  have hk := hread k
  rw [Memory.read_cons, if_pos rfl, Memory.read_of_wfFrom h' (Nat.lt_of_not_le hlt)] at hk
  exact hb hk

/-- A canonical list is canonical from its first address on. -/
theorem Memory.wfFrom_head {p : Config.Params} {lo k : Nat} {b : Byte} {m : Memory}
    (h : Memory.wfFrom p lo ((k, b) :: m) = true) : Memory.wfFrom p k ((k, b) :: m) = true :=
  Memory.wfFrom_cons.mpr ⟨le_rfl, (Memory.wfFrom_cons.mp h).2⟩

/-- Two canonical memories that read alike list the same bytes, the one at the least address first. -/
theorem Memory.eq_of_read_eq {p : Config.Params} {m m' : Memory} {lo lo' : Nat} (h : Memory.wfFrom p lo m = true)
    (h' : Memory.wfFrom p lo' m' = true) (hread : ∀ a, Memory.read p m a = Memory.read p m' a) : m = m' := by
  induction m generalizing m' lo lo' with
  | nil =>
    cases m' with
    | nil => rfl
    | cons e' m' =>
      obtain ⟨k', b'⟩ := e'
      have hnil : Memory.wfFrom p (k' + 1) [] = true := rfl
      have := Memory.le_of_read_eq h' hnil fun a => (hread a).symm
      omega
  | cons e m ih =>
    obtain ⟨k, b⟩ := e
    cases m' with
    | nil =>
      have hnil : Memory.wfFrom p (k + 1) [] = true := rfl
      have := Memory.le_of_read_eq h hnil hread
      omega
    | cons e' m' =>
      obtain ⟨k', b'⟩ := e'
      obtain rfl : k = k' := le_antisymm
        (Memory.le_of_read_eq h' (Memory.wfFrom_head h) fun a => (hread a).symm)
        (Memory.le_of_read_eq h (Memory.wfFrom_head h') hread)
      obtain ⟨-, -, -, hm⟩ := Memory.wfFrom_cons.mp h
      obtain ⟨-, -, -, hm'⟩ := Memory.wfFrom_cons.mp h'
      simp only [Memory.read_cons] at hread
      obtain rfl : b = b' := by simpa using hread k
      have htail (a : Nat) : Memory.read p m a = Memory.read p m' a := by
        by_cases ha : k = a
        · rw [Memory.read_of_wfFrom hm (by omega), Memory.read_of_wfFrom hm' (by omega)]
        · simpa [ha] using hread a
      rw [ih hm hm' htail]

/-- Settles O25: the canonical form from address 0 on. -/
theorem canonicalMemoriesReadAlikeAreEqual : Obligations.CanonicalMemoriesReadAlikeAreEqual :=
  fun _ _ _ h h' hread => Memory.eq_of_read_eq h h' hread

end Sys2Proof.Machine
end

section
/-! SUPPORT. The words of the instructions are the words that the two-level dispatch selects (30_encoding.md R104); then the statements
on decode (R103, R112, R115). -/

namespace Sys2Proof

open Machine

/-! ### The dispatch and the encoder -/

theorem packNNN_of_op {w : Word} {op : BitVec 4} (h : (fieldOp w).toNat = op.toNat) : packNNN op (fieldNNN w) = w := by
  rw [← BitVec.eq_of_toNat_eq h, packNNN_fields]

theorem packXKK_of_op {w : Word} {op : BitVec 4} (h : (fieldOp w).toNat = op.toNat) :
    packXKK op (fieldX w) (fieldKK w) = w := by
  rw [← BitVec.eq_of_toNat_eq h, packXKK_fields]

theorem packXYN_of_op {w : Word} {op : BitVec 4} (h : (fieldOp w).toNat = op.toNat) :
    packXYN op (fieldX w) (fieldY w) (fieldN w) = w := by
  rw [← BitVec.eq_of_toNat_eq h, packXYN_fields]

theorem packXYN_of_op_n {w : Word} {op : BitVec 4} {n : Nibble} (h : (fieldOp w).toNat = op.toNat)
    (hn : (fieldN w).toNat = n.toNat) : packXYN op (fieldX w) (fieldY w) n = w := by
  rw [← BitVec.eq_of_toNat_eq hn, packXYN_of_op h]

theorem packXKK_of_op_kk {w : Word} {op : BitVec 4} {kk : Byte} (h : (fieldOp w).toNat = op.toNat)
    (hkk : (fieldKK w).toNat = kk.toNat) : packXKK op (fieldX w) kk = w := by
  rw [← BitVec.eq_of_toNat_eq hkk, packXKK_of_op h]

/-- The families without a secondary selector. -/
theorem exists_encode_of_op {w : Word} (h : (fieldOp w).toNat ∈ [0x1, 0x2, 0x3, 0x4, 0x6, 0x7, 0xA, 0xB, 0xC, 0xD]) :
    ∃ i, encode i = w := by
  simp only [List.mem_cons, List.not_mem_nil, or_false] at h
  obtain h | h | h | h | h | h | h | h | h | h := h
  · exact ⟨.jump _, packNNN_of_op h⟩
  · exact ⟨.call _, packNNN_of_op h⟩
  · exact ⟨.skipEqualByte _ _, packXKK_of_op h⟩
  · exact ⟨.skipNotEqualByte _ _, packXKK_of_op h⟩
  · exact ⟨.loadByte _ _, packXKK_of_op h⟩
  · exact ⟨.addByte _ _, packXKK_of_op h⟩
  · exact ⟨.loadIndex _, packNNN_of_op h⟩
  · exact ⟨.jumpWithOffset _, packNNN_of_op h⟩
  · exact ⟨.randomWithMask _ _, packXKK_of_op h⟩
  · exact ⟨.draw _ _ _, packXYN_of_op h⟩

/-- Families 5 and 9, whose low nibble must be 0 (D3). -/
theorem exists_encode_of_op_zero {w : Word} (h : (fieldOp w).toNat ∈ [0x5, 0x9]) (hn : fieldN w = 0x0) :
    ∃ i, encode i = w := by
  have hn : (fieldN w).toNat = (0x0 : Nibble).toNat := congrArg BitVec.toNat hn
  simp only [List.mem_cons, List.not_mem_nil, or_false] at h
  obtain h | h := h
  · exact ⟨.skipEqualRegister _ _, packXYN_of_op_n h hn⟩
  · exact ⟨.skipNotEqualRegister _ _, packXYN_of_op_n h hn⟩

/-- Family 8, by its low nibble. -/
theorem exists_encode_of_family8 {w : Word} (h : fieldOp w = 0x8) (hn : (fieldN w).toNat ∈ [0, 1, 2, 3, 4, 5, 6, 7, 0xE]) :
    ∃ i, encode i = w := by
  have h : (fieldOp w).toNat = (0x8 : BitVec 4).toNat := congrArg BitVec.toNat h
  simp only [List.mem_cons, List.not_mem_nil, or_false] at hn
  obtain hn | hn | hn | hn | hn | hn | hn | hn | hn := hn
  · exact ⟨.loadRegister _ _, packXYN_of_op_n h hn⟩
  · exact ⟨.or _ _, packXYN_of_op_n h hn⟩
  · exact ⟨.and _ _, packXYN_of_op_n h hn⟩
  · exact ⟨.xor _ _, packXYN_of_op_n h hn⟩
  · exact ⟨.add _ _, packXYN_of_op_n h hn⟩
  · exact ⟨.subtract _ _, packXYN_of_op_n h hn⟩
  · exact ⟨.shiftRight _ _, packXYN_of_op_n h hn⟩
  · exact ⟨.subtractReverse _ _, packXYN_of_op_n h hn⟩
  · exact ⟨.shiftLeft _ _, packXYN_of_op_n h hn⟩

/-- Family E, by its low byte. -/
theorem exists_encode_of_familyE {w : Word} (h : fieldOp w = 0xE) (hkk : (fieldKK w).toNat ∈ [0x9E, 0xA1]) :
    ∃ i, encode i = w := by
  have h : (fieldOp w).toNat = (0xE : BitVec 4).toNat := congrArg BitVec.toNat h
  simp only [List.mem_cons, List.not_mem_nil, or_false] at hkk
  obtain hkk | hkk := hkk
  · exact ⟨.skipIfPressed _, packXKK_of_op_kk h hkk⟩
  · exact ⟨.skipIfNotPressed _, packXKK_of_op_kk h hkk⟩

/-- Family F, by its low byte. -/
theorem exists_encode_of_familyF {w : Word} (h : fieldOp w = 0xF)
    (hkk : (fieldKK w).toNat ∈ [0x07, 0x0A, 0x15, 0x18, 0x1E, 0x29, 0x33, 0x55, 0x65]) : ∃ i, encode i = w := by
  have h : (fieldOp w).toNat = (0xF : BitVec 4).toNat := congrArg BitVec.toNat h
  simp only [List.mem_cons, List.not_mem_nil, or_false] at hkk
  obtain hkk | hkk | hkk | hkk | hkk | hkk | hkk | hkk | hkk := hkk
  · exact ⟨.loadDelayTimer _, packXKK_of_op_kk h hkk⟩
  · exact ⟨.waitKeyPress _, packXKK_of_op_kk h hkk⟩
  · exact ⟨.storeDelayTimer _, packXKK_of_op_kk h hkk⟩
  · exact ⟨.storeSoundTimer _, packXKK_of_op_kk h hkk⟩
  · exact ⟨.addToIndex _, packXKK_of_op_kk h hkk⟩
  · exact ⟨.loadSprite _, packXKK_of_op_kk h hkk⟩
  · exact ⟨.storeBcd _, packXKK_of_op_kk h hkk⟩
  · exact ⟨.storeRegisters _, packXKK_of_op_kk h hkk⟩
  · exact ⟨.loadRegisters _, packXKK_of_op_kk h hkk⟩

/-- Every word the dispatch selects is the word of an instruction. -/
theorem exists_encode_of_dispatch {w : Word} (h : DispatchesTo w) : ∃ i, encode i = w := by
  obtain (rfl | rfl) | h | ⟨h, hn⟩ | ⟨h, hn⟩ | ⟨h, hkk⟩ | ⟨h, hkk⟩ := h
  · exact ⟨.clearDisplay, rfl⟩
  · exact ⟨.ret, rfl⟩
  · exact exists_encode_of_op h
  · exact exists_encode_of_op_zero h hn
  · exact exists_encode_of_family8 h hn
  · exact exists_encode_of_familyE h hkk
  · exact exists_encode_of_familyF h hkk

/-- The word of every instruction is selected by the dispatch. -/
theorem dispatchesTo_encode (i : Instr) : DispatchesTo (encode i) := by
  cases i <;> simp [DispatchesTo, encode]

/-- A word that the dispatch does not select decodes to no instruction (R103, R112). -/
theorem decode_of_noDispatch {w : Word} (sys : Config.Sys0nnn) (h : ¬DispatchesTo w) :
    decode sys w = if fieldOp w = 0x0 ∧ sys = .nop then .sysCall (fieldNNN w) else .invalid w := by
  have hnone : opcodeTable.find? (rowMatches w) = none := List.find?_eq_none.mpr fun r hr hw =>
    h (encode_of_decode (decode_of_row sys w r hr hw) ▸ dispatchesTo_encode _)
  rw [decode, hnone]

/-! ### The statements -/

/-- Settles O1: each word is looked up in the table. -/
theorem decodeExamplesOfTheSpec : Obligations.DecodeExamplesOfTheSpec := by
  unfold Obligations.DecodeExamplesOfTheSpec
  decide

/-- Settles O3: the words the dispatch selects are the words of the instructions. -/
theorem decodeFollowsTheDispatch : Obligations.DecodeFollowsTheDispatch := by
  refine fun w => ⟨fun h => ?_, fun h => ?_⟩
  · obtain ⟨i, rfl⟩ := exists_encode_of_dispatch h
    exact ⟨i, decode_encode .invalid i⟩
  · rw [decode_of_noDispatch .invalid h, if_neg (by simp)]

/-- A 0nnn word other than 00E0 and 00EE is selected by no family. -/
theorem not_dispatchesTo_of_op_zero {w : Word} (h : fieldOp w = 0x0) (h0 : w ≠ 0x00E0) (hE : w ≠ 0x00EE) :
    ¬DispatchesTo w := by
  have hno : ¬(w = 0x00E0 ∨ w = 0x00EE) := not_or.mpr ⟨h0, hE⟩
  rw [DispatchesTo, h, or_iff_right hno]
  simp

/-- A SysCall that a Cycle runs moves pc past it and samples the keys (R112). -/
theorem step_sysCall {s : State} {nnn : Addr12} (h : s.Ready) (hpc : s.pc.toNat < 0xFFF)
    (hw : decode s.params.sys0nnn (s.wordAt s.pc.toNat) = .sysCall nnn) : step s = .next s.advance.sampleKeys := by
  obtain ⟨hs, hd⟩ := h
  rw [step_eq_cycle hd, cycle_fetched hs hpc, hw, execDecoded, execSysCall, endOfCycle, s.advance.endCycle_running hs]

/-- Settles O4: the parameter is read for a word that the dispatch does not select, and there only in family 0. -/
theorem sysWordsFollowTheParameter : Obligations.SysWordsFollowTheParameter := by
  refine ⟨fun w h h0 hE => ?_, fun w hw => ?_, fun s nnn h hpc hw => step_sysCall h hpc hw⟩
  · have hno := not_dispatchesTo_of_op_zero h h0 hE
    rw [decode_of_noDispatch .invalid hno, decode_of_noDispatch .nop hno, if_neg (by simp), if_pos ⟨h, rfl⟩]
    exact ⟨rfl, rfl⟩
  · by_cases hdisp : DispatchesTo w
    · obtain ⟨i, rfl⟩ := exists_encode_of_dispatch hdisp
      rw [decode_encode, decode_encode]
    · have hop : fieldOp w ≠ 0x0 := hw.resolve_right fun h => hdisp (.inl h)
      rw [decode_of_noDispatch .invalid hdisp, decode_of_noDispatch .nop hdisp, 
        if_neg fun hc => hop hc.1, if_neg fun hc => hop hc.1]

end Sys2Proof
end

section
/-! SUPPORT. The statements on LoadRegister, the logic operations, SubtractReverse, AddToIndex, RandomWithMask and LoadSprite
(42_register_alu.md R163 to R166, R170; 43_index_random.md R191, R193; 46_memory_transfer.md R240). -/

namespace Sys2Proof.Machine

/-- Settles O35: one register write. -/
theorem registerMoveCopies : Obligations.RegisterMoveCopies := fun x y s =>
  ⟨decodesTo_encode (.loadRegister x y), _, rfl, .setReg_advance s x (s.reg y)⟩

/-- Settles O39: the reversed difference with its NOT borrow behind it. -/
theorem subtractReverseSetsNotBorrow : Obligations.SubtractReverseSetsNotBorrow := fun x y s =>
  ⟨decodesTo_encode (.subtractReverse x y), _, rfl, .writeWithFlag s x (byte_sub_eq_ofInt ..) (flagByte_decide _)⟩

/-! ### Logic, with VF by the parameter -/

/-- Without LOGIC_RESETS_VF a logic result is one register write. -/
theorem WritesReg.writeLogic {s : State} (x : RegIndex) (b : Byte) (h : s.params.logicResetsVF = false) :
    WritesReg s (s.writeLogic x b) x b := by
  have hflag : (s.setReg x b).logicFlag = s.setReg x b := if_neg (by simp [h])
  rw [State.writeLogic, hflag]
  exact .setReg_advance s x b

/-- With LOGIC_RESETS_VF it is a register write with the flag 0 behind it. -/
theorem WritesRegThenFlag.writeLogic {s : State} (x : RegIndex) (b : Byte) (h : s.params.logicResetsVF = true) :
    WritesRegThenFlag s (s.writeLogic x b) x b 0 := by
  have hflag : (s.setReg x b).logicFlag = (s.setReg x b).setFlag 0 := if_pos h
  rw [State.writeLogic, hflag]
  exact .writeWithFlag s x rfl rfl

/-- Settles O36: the result of each operation bit by bit, and one logic write. -/
theorem logicFollowsTheFlagParameter : Obligations.LogicFollowsTheFlagParameter := by
  intro x y s f i h
  refine ⟨⟨decodesTo_encode (.or x y), decodesTo_encode (.and x y), decodesTo_encode (.xor x y)⟩, ?_⟩
  obtain ⟨rfl, rfl⟩ | ⟨rfl, rfl⟩ | ⟨rfl, rfl⟩ := h
  · exact ⟨_, _, rfl, fun _ _ => BitVec.getLsbD_or, WritesReg.writeLogic x _, WritesRegThenFlag.writeLogic x _⟩
  · exact ⟨_, _, rfl, fun _ _ => BitVec.getLsbD_and, WritesReg.writeLogic x _, WritesRegThenFlag.writeLogic x _⟩
  · exact ⟨_, _, rfl, fun _ _ => BitVec.getLsbD_xor, WritesReg.writeLogic x _, WritesRegThenFlag.writeLogic x _⟩

/-! ### Index and random -/

/-- The word sum of I and a byte is the exact one mod 2^16. -/
theorem word_add_zextByte (w : Word) (b : Byte) : w + zextByte b = BitVec.ofNat 16 (w.toNat + b.toNat) := by
  rw [BitVec.add_def, toNat_zextByte]

/-- Settles O42: one write of I. -/
theorem addToIndexWrapsWithoutFlag : Obligations.AddToIndexWrapsWithoutFlag := fun x s =>
  ⟨decodesTo_encode (.addToIndex x), _, rfl, word_add_zextByte s.i (s.reg x) ▸ .setIndex_advance s _⟩

/-- Settles O43: one register write of this draw's free byte, masked, and the next draw. -/
theorem randomByteIsMasked : Obligations.RandomByteIsMasked := fun x kk s =>
  ⟨decodesTo_encode (.randomWithMask x kk), _, rfl, rfl, fun y => s.reg_setReg x y _, rfl, rfl, .of_update s ..⟩

/-- The glyph address is exact: neither the five-fold nibble nor its sum with a literal address carries past 16 bits (R240). -/
theorem toNat_glyphAddress (p : Config.Params) (b : Byte) :
    (glyphAddress p b).toNat = p.fontBase.toNat + 5 * (b.toNat % 16) := by
  have hbase := p.fontBase.isLt
  have hnibble : (b &&& 0x0F).toNat = b.toNat % 16 := by
    rw [BitVec.toNat_and]
    exact Nat.and_two_pow_sub_one_eq_mod b.toNat 4
  rw [glyphAddress, BitVec.toNat_add, BitVec.toNat_mul, toNat_zextAddr, toNat_zextByte, hnibble]
  show (_ + 5 * _ % 65536) % 65536 = _
  omega

/-- Settles O51: one write of I. -/
theorem loadSpriteFindsTheGlyph : Obligations.LoadSpriteFindsTheGlyph := fun x s =>
  ⟨decodesTo_encode (.loadSprite x), _, _, rfl, .setIndex_advance s _, toNat_glyphAddress s.params (s.reg x)⟩

end Sys2Proof.Machine
end

section
/-! SUPPORT. The statements on the keys (45_input_timers.md R220 to R224). -/

namespace Sys2Proof.Machine

/-- A register that holds a key index selects that key (R222). -/
theorem keyOf_eq_some {b : Byte} {k : KeyIndex} (h : b.toNat = k.toNat) : keyOf b = some k := by
  have hk := k.isLt
  obtain ⟨-, k', e, hk'⟩ | ⟨hlt, -⟩ := keyOf_cases b
  · rw [e, BitVec.eq_of_toNat_eq (hk'.trans h)]
  · omega

/-- Settles O33: the selected key decides the skip, and past 0xF there is none to select. -/
theorem keySkipsReadTheKey : Obligations.KeySkipsReadTheKey := by
  intro x s
  refine ⟨decodesTo_encode (.skipIfPressed x), decodesTo_encode (.skipIfNotPressed x), fun k h => ⟨?_, ?_⟩, fun h => ?_⟩
  · refine ⟨s.skipIf (s.key k), ?_, .skipIf s Iff.rfl⟩
    rw [exec, execSkipIfPressed, keyOf_eq_some h]
  · refine ⟨s.skipIf (!s.key k), ?_, .skipIf s (by simp)⟩
    rw [exec, execSkipIfNotPressed, keyOf_eq_some h]
  · obtain ⟨hle, -⟩ | ⟨-, hnone⟩ := keyOf_cases (s.reg x)
    · omega
    · exact ⟨exec_of_fault (by rw [State.faultOf, if_pos hnone]), exec_of_fault (by rw [State.faultOf, if_pos hnone])⟩

/-- A wait without a candidate changes nothing (R223). -/
theorem execWaitKeyPress_idle {x : RegIndex} {s : State} (h : ∀ k, ¬CandidateKey s k) :
    exec (.waitKeyPress x) s = .next s := by
  obtain ⟨-, e⟩ | ⟨k, hk, -⟩ := waitKeyPress_cases (Config.freeChoice s.draws) x s
  · exact congrArg Host.Outcome.next e
  · exact absurd ((s.mem_candidates k).mp hk) (h k)

/-- Settles O45: the wait takes a member of the candidate set, whichever the free choice picks. -/
theorem waitTakesACandidateKey : Obligations.WaitTakesACandidateKey := by
  refine fun x s => ⟨decodesTo_encode (.waitKeyPress x), execWaitKeyPress_idle, fun ⟨k, hk⟩ => ?_⟩
  obtain ⟨hnone, -⟩ | ⟨k', hk', e⟩ := waitKeyPress_cases (Config.freeChoice s.draws) x s
  · have hmem : k ∈ s.candidates := (s.mem_candidates k).mpr hk
    rw [hnone] at hmem
    cases hmem
  · refine ⟨_, k', congrArg Host.Outcome.next e, (s.mem_candidates k').mp hk', rfl, fun y => ?_, rfl, .of_update s ..⟩
    have hbyte : (k'.setWidth 8).toNat = k'.toNat := BitVec.toNat_setWidth_of_le (by decide)
    rw [State.nextDraw_reg, State.advance_reg, State.reg_setReg, apply_ite BitVec.toNat, hbyte]

/-- A Cycle that does not end in a fault leaves the sampled keys, the parameters and no pending operation (R43). -/
theorem cycle_completed {s t : State} (h : cycle s = .next t) (ht : t.status = .running) :
    t.keyPrev = t.keys ∧ t.params = s.params ∧ t.driver = s.driver := by
  obtain ⟨e, hs, rfl⟩ | ⟨hs, ⟨e, rfl⟩ | ⟨-, rfl | ⟨i, u, hu, rfl⟩⟩⟩ := cycle_cases h
  · rw [hs] at ht; cases ht
  · cases ht
  · rw [s.advance.endCycle_running hs]
    exact ⟨rfl, rfl, rfl⟩
  · rw [State.endCycle_status] at ht
    rw [u.endCycle_running ht]
    exact ⟨rfl, (exec_keepsInputs hu).2⟩

/-- Settles O46: after the sampling no key is a candidate under Edge, so the wait idles and the sampling repeats itself. -/
theorem heldKeysEndNoEdgeWait : Obligations.HeldKeysEndNoEdgeWait := by
  intro s t x hready hedge hstep ht hpc hw
  obtain ⟨-, hd⟩ := hready
  obtain ⟨hkeys, hparams, hdriver⟩ := cycle_completed (step_eq_cycle hd ▸ hstep) ht
  have hidle (k : KeyIndex) : ¬CandidateKey t k := by
    rintro ⟨hdown, hlevel | hup⟩
    · rw [hparams, hedge] at hlevel
      cases hlevel
    · rw [State.prevKey, hkeys] at hup
      rw [State.key, hup] at hdown
      cases hdown
  have hsample : t.sampleKeys = t := congrArg (fun keys => ({ t with keyPrev := keys } : State)) hkeys.symm
  rw [step_instr (hdriver.trans hd) ht hpc hw, execWaitKeyPress_idle hidle, endOfCycle, t.endCycle_running ht, hsample]

end Sys2Proof.Machine
end

section
/-! SUPPORT. Stacks of Calls and Returns (40_control_transfer.md R143). -/

namespace Sys2Proof.Machine

/-- An instruction before a list: the list runs from where it ends. -/
theorem execAll_cons {i : Instr} {is : List Instr} {s t : State} (h : exec i s = .next t) :
    execAll (i :: is) s = execAll is t := by
  rw [execAll, h]

/-- A run that goes on to its end goes on at its first instruction. -/
theorem exists_of_execAll_cons {i : Instr} {is : List Instr} {s t : State} (h : execAll (i :: is) s = .next t) :
    ∃ u, exec i s = .next u ∧ execAll is u = .next t := by
  rw [execAll] at h
  cases hu : exec i s with
  | next u => exact ⟨u, rfl, by rwa [hu] at h⟩
  | fault f => rw [hu] at h; cases h
  | refused r => rw [hu] at h; cases h

/-- A list of instructions after another: the second runs from where the first ends. -/
theorem execAll_append {is js : List Instr} {s t : State} (h : execAll is s = .next t) :
    execAll (is ++ js) s = execAll js t := by
  induction is generalizing s with
  | nil => rw [Host.Outcome.next.inj h, List.nil_append]
  | cons i is ih =>
    obtain ⟨u, hu, hrest⟩ := exists_of_execAll_cons h
    rw [List.cons_append, execAll_cons hu, ih hrest]

/-- A Call with room on the stack completes and moves `sp` up by one (R141). -/
theorem exec_call_fits (nnn : Addr12) {s : State} (h : s.sp.toNat < 16) :
    exec (.call nnn) s = .next (s.after (.call nnn)) ∧ (s.after (.call nnn)).sp.toNat = s.sp.toNat + 1 :=
  ⟨execCall_push nnn h, State.toNat_push_sp s.pcNext h⟩

/-- Calls that fit on the stack: `sp` moves up by their number, and the status stays. -/
theorem execAll_calls (targets : List Addr12) (s : State) (h : s.sp.toNat + targets.length ≤ 16) :
    ∃ t, execAll (targets.map Instr.call) s = .next t ∧ t.sp.toNat = s.sp.toNat + targets.length ∧ t.status = s.status := by
  induction targets generalizing s with
  | nil => exact ⟨s, rfl, rfl, rfl⟩
  | cons nnn targets ih =>
    rw [List.length_cons] at h
    obtain ⟨hcall, hcallsp⟩ := exec_call_fits nnn (s := s) (by omega)
    obtain ⟨t, ht, htsp, hstatus⟩ := ih (s.after (.call nnn)) (by omega)
    refine ⟨t, ?_, ?_, hstatus⟩
    · rw [List.map_cons, execAll_cons hcall, ht]
    · rw [htsp, hcallsp, List.length_cons]
      omega

/-- Settles O31: 16 Calls fill the stack, and on a full stack a Call overflows. -/
theorem seventeenthCallOverflows : Obligations.SeventeenthCallOverflows := by
  intro targets last s hlen h0
  have hsp0 : s.sp.toNat = 0 := congrArg BitVec.toNat h0
  obtain ⟨t, ht, hsp, hstatus⟩ := execAll_calls targets s (by omega)
  exact ⟨t, ht, by omega, hstatus, execCall_overflow last (by omega)⟩

/-- Nested Calls that fit on the stack, and as many Returns: pc and the stack at most change, no occupied entry does, and, if there is
a Call at all, pc ends behind the first. -/
theorem execAll_calls_rets (targets : List Addr12) (s : State) (h : s.sp.toNat + targets.length ≤ 16) :
    ∃ t, execAll (targets.map Instr.call ++ List.replicate targets.length .ret) s = .next t ∧
      t = { s with pc := t.pc, stack := t.stack } ∧ (∀ j : Fin 16, j.val < s.sp.toNat → t.stackAt j = s.stackAt j) ∧
      (targets ≠ [] → t.pc = s.pc + 2) := by
  induction targets generalizing s with
  | nil => exact ⟨s, rfl, rfl, fun _ _ => rfl, fun hne => absurd rfl hne⟩
  | cons nnn targets ih =>
    rw [List.length_cons] at h
    obtain ⟨hcall, hcallsp⟩ := exec_call_fits nnn (s := s) (by omega)
    obtain ⟨t, ht, hframe, hstack, -⟩ := ih (s.after (.call nnn)) (by omega)
    have htsp : t.sp = (s.after (.call nnn)).sp := by rw [hframe]
    have hret : exec .ret t = .next (t.dropTop.setPc (t.stackAt ⟨s.sp.toNat, by omega⟩)) :=
      execReturn_pop (by rw [htsp, hcallsp])
    have hkeep (j : Fin 16) (hj : j.val ≤ s.sp.toNat) : t.stackAt j = if j.val = s.sp.toNat then s.pcNext else s.stackAt j := by
      rw [hstack j (by omega)]
      exact s.stackAt_push j s.pcNext
    refine ⟨t.dropTop.setPc (t.stackAt ⟨s.sp.toNat, by omega⟩), ?_, ?_, fun j hj => ?_, fun _ => ?_⟩
    · rw [List.length_cons, List.replicate_succ', List.map_cons, List.cons_append, execAll_cons hcall, ← List.append_assoc,
        execAll_append ht, execAll_cons hret, execAll]
    · have hsp : s.sp + 1 - 1 = s.sp := BitVec.add_sub_cancel ..
      refine (congrArg (fun x : State => x.dropTop.setPc _) hframe).trans ?_
      show { s with sp := s.sp + 1 - 1, pc := _, stack := _ } = _
      rw [hsp]
      rfl
    · exact (hkeep j hj.le).trans (if_neg hj.ne)
    · exact (hkeep _ le_rfl).trans (if_pos rfl)

/-- Settles O30: at least one Call puts pc behind the first. -/
theorem nestedCallsAndReturnsBalance : Obligations.NestedCallsAndReturnsBalance := by
  intro targets s hne h
  obtain ⟨t, ht, hframe, hstack, hpc⟩ := execAll_calls_rets targets s h
  exact ⟨t, ht, hpc hne ▸ hframe, hstack⟩

end Sys2Proof.Machine
end

section
/-! SUPPORT. Two runs side by side: an instruction that writes neither ST nor the stack goes the same way whatever the two hold
(10_state.md R36, R39). -/

namespace Sys2Proof.Machine

/-- The state with another sound timer and another stack. -/
def State.overlay (s : State) (b : Byte) (stack : Vector Word 16) : State := { s with st := b, stack := stack }

/-- No fault depends on ST or on a stack entry. -/
theorem State.faultOf_overlay (s : State) (b : Byte) (stack : Vector Word 16) (i : Instr) :
    (s.overlay b stack).faultOf i = s.faultOf i := by
  cases i <;> rfl

/-- A run of register writes runs past the overlay. -/
theorem State.foldl_setReg_overlay (f : Nat → Byte) (l : List Nat) (t : State) (b : Byte) (stack : Vector Word 16) :
    l.foldl (fun t k => t.setReg (BitVec.ofNat 4 k) (f k)) (t.overlay b stack) =
      (l.foldl (fun t k => t.setReg (BitVec.ofNat 4 k) (f k)) t).overlay b stack := by
  induction l generalizing t with
  | nil => rfl
  | cons k l ih => exact ih (t.setReg (BitVec.ofNat 4 k) (f k))

/-- Loading registers runs past the overlay. -/
theorem State.loadRegs_overlay (s : State) (b : Byte) (stack : Vector Word 16) (x : RegIndex) :
    (s.overlay b stack).loadRegs x = (s.loadRegs x).overlay b stack :=
  State.foldl_setReg_overlay _ _ s b stack

/-- The index bump runs past the overlay. -/
theorem State.bumpIndex_overlay (s : State) (b : Byte) (stack : Vector Word 16) (x : RegIndex) :
    (s.overlay b stack).bumpIndex x = (s.bumpIndex x).overlay b stack := by
  simp only [State.bumpIndex_eq, State.overlay]

/-- A logic result runs past the overlay. -/
theorem State.writeLogic_overlay (s : State) (b : Byte) (stack : Vector Word 16) (x : RegIndex) (r : Byte) :
    (s.overlay b stack).writeLogic x r = (s.writeLogic x r).overlay b stack := by
  unfold State.writeLogic State.logicFlag
  by_cases h : s.params.logicResetsVF = true <;> simp [State.overlay, h] <;> rfl

/-- A wait runs past the overlay: its candidates are read from the keys. -/
theorem waitKeyPress_overlay (c : Nat) (s : State) (b : Byte) (stack : Vector Word 16) (x : RegIndex) :
    waitKeyPress c x (s.overlay b stack) = (waitKeyPress c x s).overlay b stack := by
  have hcand : (s.overlay b stack).candidates = s.candidates := rfl
  unfold waitKeyPress
  rw [hcand]
  split <;> rfl

/-- An instruction that writes neither the stack nor ST runs past the overlay. -/
theorem State.after_overlay (s : State) (b : Byte) (stack : Vector Word 16) {i : Instr} (hret : i ≠ .ret)
    (hcall : ∀ nnn, i ≠ .call nnn) (hsound : ∀ x, i ≠ .storeSoundTimer x) :
    (s.overlay b stack).after i = (s.after i).overlay b stack := by
  cases i
  case ret => exact absurd rfl hret
  case call nnn => exact absurd rfl (hcall nnn)
  case storeSoundTimer x => exact absurd rfl (hsound x)
  case waitKeyPress x => exact waitKeyPress_overlay _ s b stack x
  case or | and | xor => exact s.writeLogic_overlay b stack _ _
  case storeRegisters x =>
    exact congrArg State.advance ((s.storeBytes (s.ea 0) (s.regList x)).bumpIndex_overlay b stack x)
  case loadRegisters x =>
    have hload := s.loadRegs_overlay b stack x
    exact congrArg State.advance ((congrArg (fun t : State => t.bumpIndex x) hload).trans (State.bumpIndex_overlay _ b stack x))
  all_goals rfl

/-- Another ST goes past every instruction but StoreSoundTimer. -/
theorem State.after_withSound (s : State) (b : Byte) {i : Instr} (hsound : ∀ x, i ≠ .storeSoundTimer x) :
    ({ s with st := b } : State).after i = { s.after i with st := b } := by
  by_cases hret : i = .ret
  · subst hret; rfl
  by_cases hcall : ∃ nnn, i = .call nnn
  · obtain ⟨nnn, rfl⟩ := hcall; rfl
  have hstack : (s.after i).stack = s.stack := by_contra fun hw => hcall (State.after_stack hw)
  refine (s.after_overlay b s.stack hret (fun nnn e => hcall ⟨nnn, e⟩) hsound).trans ?_
  rw [State.overlay, ← hstack]

/-- Another stack goes past every instruction but Call and Return. -/
theorem State.after_withStack (s : State) (stack : Vector Word 16) {i : Instr} (hret : i ≠ .ret)
    (hcall : ∀ nnn, i ≠ .call nnn) : ({ s with stack := stack } : State).after i = { s.after i with stack := stack } := by
  by_cases hsound : ∃ x, i = .storeSoundTimer x
  · obtain ⟨x, rfl⟩ := hsound; rfl
  have hst : (s.after i).st = s.st := by_contra fun hw => hsound (State.after_st hw)
  refine (s.after_overlay s.st stack hret hcall fun x e => hsound ⟨x, e⟩).trans ?_
  rw [State.overlay, ← hst]

/-! ### The sound timer (R39) -/

/-- A Return that answers a next state has `sp` within the stack (log 8). -/
theorem sp_le_of_exec_ret {s t : State} (h : exec .ret s = .next t) : s.sp.toNat ≤ 16 := by
  by_contra hlt
  rw [exec_ret_stops (Nat.lt_of_not_le hlt)] at h
  cases h

/-- Settles O23: the fault, the stop and the bound on `sp` do not depend on ST, and StoreSoundTimer writes it without reading it. -/
theorem soundTimerIsNeverRead : Obligations.SoundTimerIsNeverRead := by
  intro i s b
  have hfault (i : Instr) : ({ s with st := b } : State).faultOf i = s.faultOf i := s.faultOf_overlay b s.stack i
  refine ⟨fun t h => ?_, fun f h => ?_⟩
  · obtain ⟨e, hf, rfl⟩ | ⟨hf, rfl⟩ := exec_fault_or_after h
    · exact ⟨b, exec_of_fault ((hfault i).trans hf), fun _ => ⟨rfl, rfl⟩⟩
    · have hexec : exec i { s with st := b } = .next (({ s with st := b } : State).after i) :=
        exec_of_noFault ((hfault i).trans hf) fun hret => sp_le_of_exec_ret (s := s) (hret ▸ h)
      by_cases hsound : ∃ x, i = .storeSoundTimer x
      · obtain ⟨x, rfl⟩ := hsound
        exact ⟨s.reg x, hexec, fun hno => absurd rfl (hno x)⟩
      · refine ⟨b, hexec.trans (congrArg _ (s.after_withSound b fun x e => hsound ⟨x, e⟩)), fun _ => ⟨rfl, ?_⟩⟩
        exact by_contra fun hw => hsound (State.after_st hw)
  · obtain ⟨e, -, he⟩ | ⟨-, he⟩ | ⟨rfl, hlt, he⟩ := exec_outcome i s <;> rw [he] at h <;> cases h
    exact exec_ret_stops hlt

/-! ### Stale stack entries (R36) -/

/-- The stack agrees with the state's on the occupied entries. -/
def AgreeOnStack (s : State) (stack : Vector Word 16) : Prop := ∀ j : Fin 16, j.val < s.sp.toNat → stack[j] = s.stackAt j

/-- The newest stacked address is an occupied entry, so it is the same in two stacks that agree on those. -/
theorem State.top_withStack {s : State} {stack : Vector Word 16} (hsp : s.sp.toNat ≤ 16) (h0 : s.sp ≠ 0)
    (h : AgreeOnStack s stack) : ({ s with stack := stack } : State).top = s.top := by
  have hpos : s.sp.toNat = s.sp.toNat - 1 + 1 := by have := State.toNat_dropTop_sp h0; omega
  have hj : s.sp.toNat - 1 < 16 := by omega
  have hbelow : s.sp.toNat - 1 < s.sp.toNat := by omega
  calc ({ s with stack := stack } : State).top = some stack[s.sp.toNat - 1] := State.top_eq _ ⟨_, hj⟩ hpos
    _ = some (s.stackAt ⟨_, hj⟩) := congrArg some (h ⟨_, hj⟩ hbelow)
    _ = s.top := (s.top_eq ⟨_, hj⟩ hpos).symm

/-- What an instruction from `s` makes of two states that differ in stale entries only: the same but for the stack, which agrees below
the new `sp` and keeps the stale entries above the old one. -/
def AgreeBelowSp (s t u : State) (stack : Vector Word 16) : Prop :=
  { u with stack := t.stack } = t ∧ (∀ j : Fin 16, j.val < t.sp.toNat → u.stackAt j = t.stackAt j) ∧
    ∀ j : Fin 16, s.sp.toNat < j.val → u.stackAt j = stack[j]

/-- Return reads an occupied entry and writes none. -/
theorem agreeBelowSp_after_ret {s : State} {stack : Vector Word 16} (hsp : s.sp.toNat ≤ 16) (h : AgreeOnStack s stack)
    (hf : s.faultOf .ret = none) : AgreeBelowSp s (s.after .ret) (({ s with stack := stack } : State).after .ret) stack := by
  have h0 : s.sp ≠ 0 := by simpa [State.faultOf] using hf
  have hpop : ({ s with stack := stack } : State).after .ret = { s.after .ret with stack := stack } := by
    rw [State.after, State.after, State.top_withStack hsp h0 h]
    rfl
  rw [hpop]
  refine ⟨rfl, fun j hj => h j ?_, fun j _ => rfl⟩
  have hdrop := State.toNat_dropTop_sp h0
  have hj : j.val < s.dropTop.sp.toNat := hj
  omega

/-- Call writes the entry at the old `sp` in both stacks. -/
theorem agreeBelowSp_after_call {s : State} {stack : Vector Word 16} {nnn : Addr12} (h : AgreeOnStack s stack)
    (hf : s.faultOf (.call nnn) = none) :
    AgreeBelowSp s (s.after (.call nnn)) (({ s with stack := stack } : State).after (.call nnn)) stack := by
  have hlt : s.sp.toNat < 16 := by simpa [State.faultOf] using hf
  refine ⟨rfl, fun j hj => ?_, fun j hj => ?_⟩ <;> simp only [State.after, State.setPc_stackAt, State.stackAt_push]
  · have hj : j.val < (s.push s.pcNext).sp.toNat := hj
    rw [State.toNat_push_sp _ hlt] at hj
    split
    · rfl
    · exact h j (by omega)
  · exact if_neg hj.ne'

/-- The other instructions neither read nor write the stack. -/
theorem agreeBelowSp_after_other {i : Instr} {s : State} {stack : Vector Word 16} (hsp : s.sp.toNat ≤ 16)
    (h : AgreeOnStack s stack) (hf : s.faultOf i = none) (hret : i ≠ .ret) (hcall : ∀ nnn, i ≠ .call nnn) :
    AgreeBelowSp s (s.after i) (({ s with stack := stack } : State).after i) stack := by
  have hspeq : (s.after i).sp = s.sp := by
    obtain e | ⟨-, -, nnn, e⟩ | ⟨-, e⟩ := exec_sp (exec_of_noFault hf fun _ => hsp)
    · exact e
    · exact absurd e (hcall nnn)
    · exact absurd e hret
  have hstack : (s.after i).stack = s.stack := by
    by_contra hw
    obtain ⟨nnn, e⟩ := State.after_stack hw
    exact hcall nnn e
  rw [s.after_withStack stack hret hcall]
  refine ⟨rfl, fun j hj => ?_, fun j _ => rfl⟩
  have hw : (s.after i).stackAt j = s.stackAt j := congrArg (fun v : Vector Word 16 => v[j]) hstack
  exact (h j (hspeq ▸ hj)).trans hw.symm

/-- An instruction that completes keeps the agreement. -/
theorem agreeBelowSp_after {i : Instr} {s : State} {stack : Vector Word 16} (hsp : s.sp.toNat ≤ 16)
    (h : AgreeOnStack s stack) (hf : s.faultOf i = none) :
    AgreeBelowSp s (s.after i) (({ s with stack := stack } : State).after i) stack := by
  by_cases hret : i = .ret
  · subst hret
    exact agreeBelowSp_after_ret hsp h hf
  by_cases hcall : ∃ nnn, i = .call nnn
  · obtain ⟨nnn, rfl⟩ := hcall
    exact agreeBelowSp_after_call h hf
  · exact agreeBelowSp_after_other hsp h hf hret fun nnn e => hcall ⟨nnn, e⟩

/-- Settles O24: a fault leaves both states alike, and an instruction that completes keeps the agreement. -/
theorem staleStackEntriesAreNeverRead : Obligations.StaleStackEntriesAreNeverRead := by
  intro i s stack hsp h t ht
  have hfault : ({ s with stack := stack } : State).faultOf i = s.faultOf i := s.faultOf_overlay s.st stack i
  obtain ⟨e, hf, rfl⟩ | ⟨hf, rfl⟩ := exec_fault_or_after ht
  · exact ⟨_, exec_of_fault (hfault.trans hf), rfl, h, fun _ _ => rfl⟩
  · exact ⟨_, exec_of_noFault (hfault.trans hf) fun _ => hsp, agreeBelowSp_after hsp h hf⟩

end Sys2Proof.Machine
end

section
/-! SUPPORT. The transfers between registers and memory (46_memory_transfer.md R242 to R244) and the range check before them
(20_memory.md R76). -/

namespace Sys2Proof.Machine

/-! ### The range check -/

/-- Settles O52: the four instructions check their whole range first, and complete inside the image. -/
theorem outOfRangeAccessFaultsFirst : Obligations.OutOfRangeAccessFaultsFirst := by
  intro i len s hi
  have hfault : s.faultOf i = if s.outOfRange len then some s.rangeFault else none := by
    obtain ⟨x, y, n, rfl, rfl⟩ | ⟨x, rfl, rfl⟩ | ⟨x, rfl | rfl, rfl⟩ := hi <;> rfl
  have hpc : (s.after i).pc = s.pc + 2 := by
    obtain ⟨x, y, n, rfl, -⟩ | ⟨x, rfl, -⟩ | ⟨x, rfl | rfl, -⟩ := hi <;> simp [State.after]
  refine ⟨fun hout => ?_, fun hin => ⟨s.after i, ?_, s.after_status i, hpc⟩⟩
  · exact exec_of_fault (hfault.trans (if_pos ((s.outOfRange_iff len).mpr hout)))
  · have hret : i ≠ .ret := by
      obtain ⟨x, y, n, rfl, -⟩ | ⟨x, rfl, -⟩ | ⟨x, rfl | rfl, -⟩ := hi <;> simp
    refine exec_of_noFault (hfault.trans (if_neg ?_)) fun e => absurd e hret
    simp [(s.inRange_iff len).mpr hin]

/-! ### Frames -/

/-- Everything but the registers, I, pc and memory is the same. -/
def SameButRegsIndexPcAndMemory (s t : State) : Prop :=
  t.draws = s.draws ∧ SameTimers s t ∧ SameStack s t ∧ SameDisplay s t ∧ SameKeys s t ∧ SameControl s t

/-- The rest of the state is read from other fields. -/
theorem SameButRegsIndexPcAndMemory.of_update (s : State) (i pc : Word) (mem : Memory) :
    SameButRegsIndexPcAndMemory s { s with i := i, pc := pc, mem := mem } :=
  ⟨rfl, ⟨rfl, rfl⟩, ⟨rfl, fun _ => rfl⟩, fun _ _ => rfl, ⟨fun _ => rfl, fun _ => rfl⟩, rfl, rfl, rfl⟩

/-- I after a bulk transfer, as the word sum that the model computes (R243, R244). -/
theorem indexAfterTransfer_eq (s : State) (x : RegIndex) :
    IndexAfterTransfer s x = if s.params.loadStoreIncrementsI then s.i + BitVec.ofNat 16 (x.toNat + 1) else s.i := by
  rw [IndexAfterTransfer, Nat.add_assoc, BitVec.ofNat_add, BitVec.ofNat_toNat, BitVec.setWidth_eq]

/-! ### StoreBCD -/

/-- The digits of a byte, as numbers (R242). -/
theorem toNat_bcdDigits (b : Byte) :
    (bcdDigits b)[0].toNat = b.toNat / 100 ∧ (bcdDigits b)[1].toNat = b.toNat / 10 % 10 ∧
      (bcdDigits b)[2].toNat = b.toNat % 10 := by
  have hb := b.isLt
  simp only [bcdDigits, List.getElem_cons_zero, List.getElem_cons_succ, BitVec.toNat_ofNat]
  omega

/-- Settles O53: the three digits are one store at I. -/
theorem storeBcdWritesTheDigits : Obligations.StoreBcdWritesTheDigits := by
  intro x s h
  have hexec : exec (.storeBcd x) s = .next (s.after (.storeBcd x)) :=
    exec_of_noFault (State.faultOf_storeBcd_none.mpr h) nofun
  have hinside (k : Nat) (hk : k < 3) : (s.after (.storeBcd x)).readByte (s.i.toNat + k) = (bcdDigits (s.reg x))[k] :=
    State.readByte_storeBytes_inside s _ k (bcdDigits (s.reg x)) hk
  have h0 := hinside 0 (by decide)
  have h1 := hinside 1 (by decide)
  have h2 := hinside 2 (by decide)
  obtain ⟨d0, d1, d2⟩ := toNat_bcdDigits (s.reg x)
  rw [← h0, Nat.add_zero] at d0
  rw [← h1] at d1
  rw [← h2] at d2
  refine ⟨decodesTo_encode (.storeBcd x), _, hexec, rfl, d0, d1, d2, ?_, fun a ha => ?_, fun _ => rfl, rfl,
    SameButRegsIndexPcAndMemory.of_update s ..⟩
  · rw [d0, d1, d2]
    omega
  · exact State.readByte_storeBytes_outside s _ a (bcdDigits (s.reg x)) ha

/-! ### The bulk transfers -/

/-- StoreRegisters writes I, pc and memory only. -/
theorem State.after_storeRegisters (s : State) (x : RegIndex) :
    s.after (.storeRegisters x) =
      { s with i := IndexAfterTransfer s x, pc := s.pc + 2, mem := (s.storeBytes s.i.toNat (s.regList x)).mem } := by
  rw [State.after, State.bumpIndex_eq, indexAfterTransfer_eq]
  rfl

/-- LoadRegisters writes the registers, I and pc only. -/
theorem State.after_loadRegisters (s : State) (x : RegIndex) :
    s.after (.loadRegisters x) =
      { s with v := (s.loadRegs x).v, i := IndexAfterTransfer s x, pc := s.pc + 2 } := by
  rw [State.after, State.bumpIndex_eq, indexAfterTransfer_eq, s.loadRegs_frame x]
  rfl

/-- Settles O54: the registers are one store at I, in order. -/
theorem storeRegistersWritesTheRun : Obligations.StoreRegistersWritesTheRun := by
  intro x s h
  have hexec := exec_of_noFault (State.faultOf_storeRegisters_none.mpr h) nofun
  rw [s.after_storeRegisters x] at hexec
  refine ⟨decodesTo_encode (.storeRegisters x), _, hexec, rfl, rfl, fun y hy => ?_, fun a ha => ?_, fun _ => rfl,
    SameButRegsIndexPcAndMemory.of_update s ..⟩
  · have hlen : y.toNat < (s.regList x).length := by
      rw [State.length_regList]
      exact Nat.lt_succ_of_le hy
    exact (s.readByte_storeBytes_inside _ _ _ hlen).trans (s.getElem_regList x y hlen)
  · refine s.readByte_storeBytes_outside _ a _ ?_
    rw [State.length_regList]
    exact ha

/-- Settles O55: the registers from memory, and the frame of the load. -/
theorem loadRegistersReadsTheRun : Obligations.LoadRegistersReadsTheRun := by
  intro x s h
  have hexec := exec_of_noFault (State.faultOf_loadRegisters_none.mpr h) nofun
  rw [s.after_loadRegisters x] at hexec
  exact ⟨decodesTo_encode (.loadRegisters x), _, hexec, rfl, rfl, s.reg_loadRegs x, rfl, .of_update s ..⟩

/-- A stored register is read back at its address, from any state with that memory (20_memory.md R80). -/
theorem readByte_after_storeRegisters {x y : RegIndex} {s t u : State} (h : s.i.toNat + x.toNat < 0x1000)
    (ht : exec (.storeRegisters x) s = .next t) (hmem : u.mem = t.mem) (hparams : u.params = t.params) (hy : y ≤ x) :
    u.readByte (s.i.toNat + y.toNat) = s.reg y := by
  obtain ⟨-, t', ht', -, -, hread, -⟩ := storeRegistersWritesTheRun x s h
  obtain rfl : t' = t := Host.Outcome.next.inj (ht'.symm.trans ht)
  exact (State.readByte_congr hparams hmem _).trans (hread y hy)

/-- Settles O56: the two bytes of the fetch are the two registers. -/
theorem fetchSeesTheStore : Obligations.FetchSeesTheStore := by
  intro x s t h ht y z hz hzx u hmem hparams hpc
  have hzx' : z.toNat ≤ x.toNat := hzx
  have hyx : y ≤ x := by show y.toNat ≤ x.toNat; omega
  have hfirst := readByte_after_storeRegisters h ht hmem hparams hyx
  have hsecond := readByte_after_storeRegisters h ht hmem hparams hzx
  rw [hz, ← Nat.add_assoc] at hsecond
  rw [u.fetch_ok (by omega), State.wordAt, hpc, hfirst, hsecond]

/-- Settles O57: the load reads what the store wrote. -/
theorem storeThenLoadRegistersRoundTrips : Obligations.StoreThenLoadRegistersRoundTrips := by
  intro x s t u h ht hmem hparams hi
  obtain ⟨-, v, hv, -, -, hregs, -⟩ := loadRegistersReadsTheRun x u (by rwa [hi])
  refine ⟨v, hv, fun y hy => ?_, fun y hy => ?_⟩
  · rw [hregs, if_pos hy, hi]
    exact readByte_after_storeRegisters h ht hmem hparams hy
  · rw [hregs, if_neg (by bv_omega)]

end Sys2Proof.Machine
end

section
/-! SUPPORT. Draw (44_display.md R200 to R202): the sprite's bits on distinct pixels, as the pixels that the sprite covers. -/

namespace Sys2Proof.Machine

/-- The sprite of a Draw covers the pixel by a set, unclipped bit (R201). -/
abbrev SpriteCovers (s : State) (x y : RegIndex) (n : Nibble) (r : Fin 32) (c : Fin 64) : Prop :=
  Covers s ((s.reg x).toNat % 64) ((s.reg y).toNat % 32) n.toNat r c

/-- The sprite covers the pixels that its active bits hit. -/
theorem spriteCovers_iff (s : State) (x y : RegIndex) (n : Nibble) (r : Fin 32) (c : Fin 64) :
    SpriteCovers s x y n r c ↔
      ∃ e ∈ s.spriteBits x y n, e.active s.params.drawClip = true ∧ e.hits r.val c.val = true := by
  have hr := Nat.mod_eq_of_lt r.isLt
  have hc := Nat.mod_eq_of_lt c.isLt
  constructor
  · rintro ⟨k, hk, j, hj, hon, hclip, hrow, hcol⟩
    refine ⟨_, (s.mem_spriteBits x y n _).mpr ⟨k, hk, j, hj, rfl⟩, (SpriteBit.active_iff ..).mpr ⟨hon, hclip⟩, ?_⟩
    exact (SpriteBit.hits_iff ..).mpr ⟨hr.trans hrow.symm, hc.trans hcol.symm⟩
  · rintro ⟨e, he, hactive, hhits⟩
    obtain ⟨k, hk, j, hj, rfl⟩ := (s.mem_spriteBits x y n _).mp he
    obtain ⟨hon, hclip⟩ := (SpriteBit.active_iff ..).mp hactive
    obtain ⟨hrow, hcol⟩ := (SpriteBit.hits_iff ..).mp hhits
    exact ⟨k, hk, j, hj, hon, hclip, (hr.symm.trans hrow).symm, (hc.symm.trans hcol).symm⟩

/-- The pixel a bit falls on. -/
theorem SpriteBit.get_eq_pixel (e : SpriteBit) (s : State) {r : Fin 32} {c : Fin 64} (h : e.hits r.val c.val = true) :
    Display.get s.disp e.row e.col = s.pixel r c := by
  obtain ⟨hrow, hcol⟩ := (SpriteBit.hits_iff ..).mp h
  rw [State.pixel_eq_get]
  simp [Display.get, hrow, hcol]

/-- Every bit falls on a pixel of the display. -/
theorem SpriteBit.exists_hits (e : SpriteBit) : ∃ (r : Fin 32) (c : Fin 64), e.hits r.val c.val = true :=
  ⟨⟨e.row % 32, Nat.mod_lt _ (by decide)⟩, ⟨e.col % 64, Nat.mod_lt _ (by decide)⟩,
    (SpriteBit.hits_iff ..).mpr ⟨Nat.mod_mod .., Nat.mod_mod ..⟩⟩

/-- Draw toggles the covered pixels and no other. -/
theorem State.get_drawSprite (s : State) (x y : RegIndex) (n : Nibble) (r : Fin 32) (c : Fin 64) :
    (SpriteCovers s x y n r c → Display.get (s.drawSprite x y n).1 r.val c.val = !s.pixel r c) ∧
      (¬SpriteCovers s x y n r c → Display.get (s.drawSprite x y n).1 r.val c.val = s.pixel r c) := by
  have hany : SpriteCovers s x y n r c ↔
      ((s.spriteBits x y n).any fun e => e.active s.params.drawClip && e.hits r.val c.val) = true := by
    simp [spriteCovers_iff]
  rw [s.drawSprite_eq_plotAll, plotAll_get _ _ (s.spriteBits_apart x y n), State.pixel_eq_get, hany]
  exact ⟨fun h => by simp [h], fun h => by simp [h]⟩

/-- Draw collides where it covers a lit pixel. -/
theorem State.drawSprite_collides_iff (s : State) (x y : RegIndex) (n : Nibble) :
    (s.drawSprite x y n).2 = true ↔ ∃ r c, SpriteCovers s x y n r c ∧ s.pixel r c = true := by
  rw [s.drawSprite_eq_plotAll, plotAll_collision _ _ (s.spriteBits_apart x y n), Bool.false_or, List.any_eq_true]
  simp only [Bool.and_eq_true, spriteCovers_iff]
  constructor
  · rintro ⟨e, he, hactive, hlit⟩
    obtain ⟨r, c, hh⟩ := e.exists_hits
    exact ⟨r, c, ⟨e, he, hactive, hh⟩, e.get_eq_pixel s hh ▸ hlit⟩
  · rintro ⟨r, c, ⟨e, he, hactive, hh⟩, hlit⟩
    exact ⟨e, he, hactive, (e.get_eq_pixel s hh).trans hlit⟩

/-- A flag is 1 or 0, and 1 exactly where its condition holds. -/
theorem flagByte_cases (b : Bool) : (flagByte b = 1 ∨ flagByte b = 0) ∧ (flagByte b = 1 ↔ b = true) := by
  cases b <;> decide

/-- Settles O48: the toggled pixels and the collision, and VF written last. -/
theorem drawTogglesThePixelsUnderTheSprite : Obligations.DrawTogglesThePixelsUnderTheSprite := by
  intro x y n s h
  have hexec := exec_of_noFault (State.faultOf_draw_none (x := x) (y := y).mpr h) nofun
  have hflag : (s.after (.draw x y n)).reg 0xF = flagByte (s.drawSprite x y n).2 :=
    (State.reg_setFlag _ 0xF _).trans (if_pos rfl)
  obtain ⟨hbit, hiff⟩ := flagByte_cases (s.drawSprite x y n).2
  refine ⟨decodesTo_encode (.draw x y n), _, hexec, rfl, fun r c => ?_, hflag ▸ hbit, ?_, fun z hz => ?_,
    SameButRegsPcAndDisplay.of_update s ..⟩
  · have hpixel : (s.after (.draw x y n)).pixel r c = Display.get (s.drawSprite x y n).1 r.val c.val :=
      State.pixel_setDisplay s _ r c
    rw [hpixel]
    exact s.get_drawSprite x y n r c
  · rw [hflag, hiff]
    exact s.drawSprite_collides_iff x y n
  · exact State.reg_setFlag_of_ne hz

/-! ### The same Draw twice (R202) -/

/-- What a sprite covers is read from I, the two registers, the parameters and memory. -/
theorem spriteCovers_congr {s t : State} {x y : RegIndex} (n : Nibble) (hx : t.reg x = s.reg x) (hy : t.reg y = s.reg y)
    (hi : t.i = s.i) (hmem : SameMemory s t) (hparams : t.params = s.params) (r : Fin 32) (c : Fin 64) :
    SpriteCovers t x y n r c ↔ SpriteCovers s x y n r c := by
  have hread : t.readByte = s.readByte := funext hmem
  rw [SpriteCovers, SpriteCovers, Covers, Covers, hx, hy, hi, hparams, hread]

/-- What two Draws of the same sprite do: the first toggles the covered pixels, the second toggles them back, and each reports the
covered pixels it finds lit. -/
theorem draw_twice {x y : RegIndex} {n : Nibble} {s t u : State} (h : n = 0 ∨ s.i.toNat + n.toNat ≤ 0x1000)
    (ht : exec (.draw x y n) s = .next t) (hx : t.reg x = s.reg x) (hy : t.reg y = s.reg y)
    (hu : exec (.draw x y n) t = .next u) :
    (∀ r c, u.pixel r c = s.pixel r c) ∧
      (t.reg 0xF = 0 ∨ ∃ r c, SpriteCovers s x y n r c ∧ s.pixel r c = true) ∧
      (u.reg 0xF = 1 ↔ ∃ r c, SpriteCovers s x y n r c ∧ s.pixel r c = false) := by
  obtain ⟨-, t', ht', -, hpix, hflag, hone, -, hi, -, -, -, hmem, -, -, hparams, -⟩ :=
    drawTogglesThePixelsUnderTheSprite x y n s h
  obtain rfl : t' = t := Host.Outcome.next.inj (ht'.symm.trans ht)
  obtain ⟨-, u', hu', -, hpix', -, hone', -⟩ := drawTogglesThePixelsUnderTheSprite x y n t' (hi ▸ h)
  obtain rfl : u' = u := Host.Outcome.next.inj (hu'.symm.trans hu)
  have hcov := spriteCovers_congr n hx hy hi hmem hparams
  refine ⟨fun r c => ?_, ?_, ?_⟩
  · by_cases hc : SpriteCovers s x y n r c
    · rw [(hpix' r c).1 ((hcov r c).mpr hc), (hpix r c).1 hc, Bool.not_not]
    · rw [(hpix' r c).2 (mt (hcov r c).mp hc), (hpix r c).2 hc]
  · exact hflag.symm.imp_right hone.mp
  · rw [hone']
    refine exists_congr fun r => exists_congr fun c => ?_
    rw [← Bool.not_eq_true']
    constructor
    · rintro ⟨hc, hlit⟩
      have hc := (hcov r c).mp hc
      exact ⟨hc, (hpix r c).1 hc ▸ hlit⟩
    · rintro ⟨hc, hdark⟩
      exact ⟨(hcov r c).mpr hc, (hpix r c).1 hc ▸ hdark⟩

/-- Settles O49: where every covered pixel was dark, none was lit and each reports. -/
theorem drawingTwiceRestoresTheDisplay : Obligations.DrawingTwiceRestoresTheDisplay := by
  intro x y n s t u h ht hx hy hu
  obtain ⟨hpix, hfirst, hsecond⟩ := draw_twice h ht hx hy hu
  refine ⟨hpix, hsecond, fun hdark => ⟨hfirst.resolve_right ?_, hsecond.trans ?_⟩⟩
  · rintro ⟨r, c, hc, hlit⟩
    rw [hdark r c hc] at hlit
    cases hlit
  · exact exists_congr fun r => exists_congr fun c => and_iff_left_of_imp (hdark r c)

/-- The machine after reset with every pixel lit: I is 0, where the font's first byte 0xF0 stands. -/
def allLit : State := State.reset.setDisplay (Vector.replicate 32 (Vector.replicate 64 true))

theorem allLit_pixel (r : Fin 32) (c : Fin 64) : allLit.pixel r c = true := by
  simp [allLit, Display.get]

/-- The one-row sprite at I covers the top left pixel. -/
theorem allLit_covers : SpriteCovers allLit 0 0 1 0 0 :=
  ⟨0, by decide, 0, by decide, by decide, by decide, by decide, by decide⟩

/-- Refutes O50: on a display that is lit everywhere the second Draw of a sprite only turns pixels on, and reports no collision. -/
theorem not_secondDrawAlwaysReportsACollision : ¬Obligations.SecondDrawAlwaysReportsACollision := by
  intro h
  have hrange : (1 : Nibble) = 0 ∨ allLit.i.toNat + (1 : Nibble).toNat ≤ 0x1000 := .inr (by decide)
  obtain ⟨-, t, ht, -, -, -, -, hregs, hi, -⟩ := drawTogglesThePixelsUnderTheSprite 0 0 1 allLit hrange
  obtain ⟨-, u, hu, -⟩ := drawTogglesThePixelsUnderTheSprite 0 0 1 t (hi ▸ hrange)
  have hreg : t.reg 0 = allLit.reg 0 := hregs 0 (by decide)
  obtain ⟨-, -, hsecond⟩ := draw_twice hrange ht hreg hreg hu
  obtain ⟨r, c, -, hdark⟩ := hsecond.mp ((h 0 0 1 allLit t u hrange ht hreg hreg hu).mpr ⟨0, 0, allLit_covers⟩)
  rw [allLit_pixel] at hdark
  cases hdark

end Sys2Proof.Machine
end
